-- ==== Sys2Proof/Word.lean ====
section
/-! DEFINITION. The widths of the hardware's words (spec 00_scope.md R6, R7: every width is fixed by the source). -/

namespace Sys2Proof

/-- A 4-bit value: the accumulator, a working register, a data cell, a port (R21, R22, R41). -/
abbrev Nibble := BitVec 4

/-- An 8-bit value: one cell of program memory, the timer count (R30, R40). -/
abbrev Byte := BitVec 8

/-- A 12-bit program memory address, the width of the program counter (R24). -/
abbrev RomAddr := BitVec 12

/-- An 8-bit data memory address, the width of a register pair (R23, R41). -/
abbrev DataAddr := BitVec 8

end Sys2Proof
end

