-- ==== Sys2Proof/Machine/Flags.lean ====
section
/-! DEFINITION. Every computation that gives `CF` (spec 10_state.md R28): the 4-bit adder (40_arithmetic.md R120), the
decimal adjust (R127) and the rotates (44_rotate_io.md R200). -/

namespace Sys2Proof.Machine

/-- A 4-bit result and the carry flag that goes with it. -/
structure AluResult where
  value : Nibble
  carry : Bool
  deriving DecidableEq, Repr

/-- R120: `x = a + b + c`, `sum4 = x mod 16`, `carry4 = x[4]`. -/
def adder (a b : Nibble) (c : Bool) : AluResult :=
  let x := a.toNat + b.toNat + c.toNat
  ⟨BitVec.ofNat 4 x, decide (16 ≤ x)⟩

/-- R120: a subtraction adds the complement, so `CF` is 1 exactly when no borrow takes place. -/
def subtracter (a b : Nibble) (c : Bool) : AluResult := adder a (~~~b) c

/-- R127: decimal adjust; the carry is set when the adjustment is made and is otherwise left as it was. -/
def decimalAdjust (a : Nibble) (c : Bool) : AluResult :=
  if 9 < a.toNat ∨ c = true then ⟨BitVec.ofNat 4 (a.toNat + 6), true⟩ else ⟨a, c⟩

/-- R201 `RL A`: A3 goes to A0 and to the carry. -/
def rotateLeft (a : Nibble) : AluResult := ⟨a.extractLsb' 0 3 ++ a.extractLsb' 3 1, a.getLsbD 3⟩

/-- R202 `RLC A`: A3 goes to the carry and the carry to A0. -/
def rotateLeftCarry (a : Nibble) (c : Bool) : AluResult := ⟨a.extractLsb' 0 3 ++ BitVec.ofBool c, a.getLsbD 3⟩

/-- R203 `RR A`: A0 goes to A3 and to the carry. -/
def rotateRight (a : Nibble) : AluResult := ⟨a.extractLsb' 0 1 ++ a.extractLsb' 1 3, a.getLsbD 0⟩

/-- R204 `RRC A`: A0 goes to the carry and the carry to A3. -/
def rotateRightCarry (a : Nibble) (c : Bool) : AluResult := ⟨BitVec.ofBool c ++ a.extractLsb' 1 3, a.getLsbD 0⟩

end Sys2Proof.Machine
end

