-- ==== Sys2Proof/Config.lean ====
section
/-! DEFINITION. What an implementation fixes (the parameters of spec 00_scope.md R6) and the free values:
constants without a body, so that nothing proved can rest on what they are. -/

namespace Sys2Proof

/-- The two devices of one processor (R1, R2): they differ in data memory and LCD size only. -/
inductive Device where
  | ht44300
  | ht443A0
  deriving DecidableEq, Repr, Inhabited

/-- The three input ports (R38). -/
inductive InPort where
  | pm
  | ps
  | pp
  deriving DecidableEq, Repr, Inhabited

/-- `TMR_SRC` (R6, R335): pad TMCLK, or the system clock divided by two to the power `n`.
`Configuration.make` refuses the values of `n` that are no configuration of the hardware (U4). -/
inductive TimerSource where
  | ext
  | int (n : Nat)
  deriving DecidableEq, Repr, Inhabited

/-- `IMM8_FIRST_NIBBLE` (R6, R98): which nibble of an 8-bit pair immediate stands in the first byte. -/
inductive NibbleOrder where
  | high
  | low
  deriving DecidableEq, Repr, Inhabited

/-- `EXT_TMR_IN_HALT` (R6, R334): whether a timer clocked from pad TMCLK goes on counting during HALT. -/
inductive ExtTimerInHalt where
  | counts
  | frozen
  deriving DecidableEq, Repr, Inhabited

/-- `PA_TYPE` (R6, R37): the electrical form of the output port's pins. -/
inductive OutputType where
  | cmos
  | nmosOpenDrain
  deriving DecidableEq, Repr, Inhabited

/-- `LCD_DUTY` (R6): the LCD drive, two choices for each device. -/
inductive LcdDrive where
  | duty4bias3
  | duty3bias3
  | duty8bias4
  | duty8bias5
  deriving DecidableEq, Repr, Inhabited

/-- The two supply voltages R6 speaks of (log entry 30): the range of `F_SYS` and the bias of the HT443A0's display go with it. -/
inductive Supply where
  | v3
  | v5
  deriving DecidableEq, Repr, Inhabited

/-- The parameters of R6 other than the program itself, as somebody may ask for them: fixed before a program runs, never
changed by it. Only a `Configuration` (WellFormed.lean), which R6 allows, makes a machine. -/
structure MaskOptions where
  device : Device
  /-- VDD, on which the rows `LCD_DUTY` and `F_SYS` of R6 depend. -/
  supply : Supply
  /-- `PULLUP[p]`: the port's pins have pull-high resistors. -/
  pullPM : Bool
  pullPS : Bool
  pullPP : Bool
  /-- `WAKE[p][i]`: bit `i` of the mask lets pin `i` of the port wake the processor. -/
  wakePM : BitVec 4
  wakePS : BitVec 4
  wakePP : BitVec 4
  paType : OutputType
  tmrSrc : TimerSource
  /-- `SND_DIV`: the sound clock is the system clock divided by two to this power. -/
  sndDiv : Nat
  lcdDrive : LcdDrive
  /-- `F_SYS` in kHz. -/
  fSysKHz : Nat
  immFirst : NibbleOrder
  extTmrInHalt : ExtTimerInHalt
  deriving DecidableEq, Repr, Inhabited

/-- `PULLUP[p]` of R6. -/
def MaskOptions.pullUp (o : MaskOptions) : InPort → Bool
  | .pm => o.pullPM
  | .ps => o.pullPS
  | .pp => o.pullPP

/-- `WAKE[p]` of R6, bit `i` for pin `i`. -/
def MaskOptions.wakeMask (o : MaskOptions) : InPort → BitVec 4
  | .pm => o.wakePM
  | .ps => o.wakePS
  | .pp => o.wakePP

/-- The options asked for when the machine of `State.reset` was made: any at all. DESIGN CHOICE, safe
(log entry 2): the spec gives these parameters no default (R6, D2, D20). -/
opaque Config.requestedOptions : MaskOptions

/-- The byte of mask ROM at an address whose content the state does not list (R40, R61): the parameter `ROM`.
DESIGN CHOICE, safe (log entry 1). -/
opaque Config.maskRom : RomAddr → Byte

/-- What a populated data cell holds that nothing has written since the last reset (R46, R362, U2, U10):
any value, one for each cell and each reset (the first argument counts resets). DESIGN CHOICE, safe (log entry 4). -/
opaque Config.unwrittenCell : Nat → DataAddr → Nibble

/-- A value the spec leaves open, of any width, for the n-th draw of a run (R336, U8; R38, U9; R362).
DESIGN CHOICE, safe (log entry 5). -/
opaque Config.freeValue : (w : Nat) → Nat → BitVec w

/-- R335: how many periods of the system clock one tick of an internal timer source lasts. -/
def TimerSource.systemClocksPerTick : TimerSource → Option Nat
  | .ext => none
  | .int n => some (2 ^ n)

/-- R374: one machine cycle is four periods of the system clock; its length in nanoseconds at `f` kHz. -/
def machineCycleNs (f : Nat) : Nat := 4 * 1000000 / f

end Sys2Proof
end

