-- ==== Sys2Proof/Syntax.lean ====
section
/-! DEFINITION. The instruction set: one constructor for each of the 93 rows of spec/opcode_table.json, in the
table's order (spec 30_encoding.md R103). Every operand has exactly the width its field has (R102), so every term
is an instruction the encoding admits. -/

namespace Sys2Proof

inductive Instr where
  /-- `RR A` (R203). -/
  | rrA
  /-- `RL A` (R201). -/
  | rlA
  /-- `RRC A` (R204). -/
  | rrcA
  /-- `RLC A` (R202). -/
  | rlcA
  /-- `MOV A,[R1R0]` (R183). -/
  | movAM10
  /-- `MOV [R1R0],A` (R185). -/
  | movM10A
  /-- `MOV A,[R3R2]` (R184). -/
  | movAM32
  /-- `MOV [R3R2],A` (R186). -/
  | movM32A
  /-- `ADC A,[R1R0]` (R122). -/
  | adcAM
  /-- `ADD A,[R1R0]` (R121). -/
  | addAM
  /-- `SBC A,[R1R0]` (R124). -/
  | sbcAM
  /-- `SUB A,[R1R0]` (R123). -/
  | subAM
  /-- `INC [R1R0]` (R163). -/
  | incM10
  /-- `DEC [R1R0]` (R167). -/
  | decM10
  /-- `INC [R3R2]` (R164). -/
  | incM32
  /-- `DEC [R3R2]` (R168). -/
  | decM32
  /-- `INC R0` (R162). -/
  | incR0
  /-- `DEC R0` (R166). -/
  | decR0
  /-- `INC R1` (R162). -/
  | incR1
  /-- `DEC R1` (R166). -/
  | decR1
  /-- `INC R2` (R162). -/
  | incR2
  /-- `DEC R2` (R166). -/
  | decR2
  /-- `INC R3` (R162). -/
  | incR3
  /-- `DEC R3` (R166). -/
  | decR3
  /-- `INC R4` (R162). -/
  | incR4
  /-- `DEC R4` (R166). -/
  | decR4
  /-- `AND A,[R1R0]` (R141). -/
  | andAM
  /-- `XOR A,[R1R0]` (R143). -/
  | xorAM
  /-- `OR A,[R1R0]` (R142). -/
  | orAM
  /-- `AND [R1R0],A` (R144). -/
  | andMA
  /-- `XOR [R1R0],A` (R146). -/
  | xorMA
  /-- `OR [R1R0],A` (R145). -/
  | orMA
  /-- `MOV R0,A` (R182). -/
  | movR0A
  /-- `MOV A,R0` (R181). -/
  | movAR0
  /-- `MOV R1,A` (R182). -/
  | movR1A
  /-- `MOV A,R1` (R181). -/
  | movAR1
  /-- `MOV R2,A` (R182). -/
  | movR2A
  /-- `MOV A,R2` (R181). -/
  | movAR2
  /-- `MOV R3,A` (R182). -/
  | movR3A
  /-- `MOV A,R3` (R181). -/
  | movAR3
  /-- `MOV R4,A` (R182). -/
  | movR4A
  /-- `MOV A,R4` (R181). -/
  | movAR4
  /-- `CLC` (R243). -/
  | clc
  /-- `STC` (R244). -/
  | stc
  /-- `EI` (R245). -/
  | ei
  /-- `DI` (R246). -/
  | di
  /-- `RET` (R241). -/
  | ret
  /-- `RETI` (R242). -/
  | reti
  /-- `OUT PA,A` (R206). -/
  | outPAA
  /-- `INC A` (R161). -/
  | incA
  /-- `IN A,PM` (R205). -/
  | inAPM
  /-- `IN A,PS` (R205). -/
  | inAPS
  /-- `IN A,PP` (R205). -/
  | inAPP
  /-- `DAA` (R127). -/
  | daa
  /-- `HALT` (R297). -/
  | halt
  /-- `TIMER ON` (R261). -/
  | timerOn
  /-- `TIMER OFF` (R262). -/
  | timerOff
  /-- `MOV A,TMRL` (R263). -/
  | movATmrl
  /-- `MOV A,TMRH` (R264). -/
  | movATmrh
  /-- `MOV TMRL,A` (R265). -/
  | movTmrlA
  /-- `MOV TMRH,A` (R266). -/
  | movTmrhA
  /-- `NOP` (R247). -/
  | nop
  /-- `DEC A` (R165). -/
  | decA
  /-- `ADD A,XH` (R125). -/
  | addAX (x : Nibble)
  /-- `SUB A,XH` (R126). -/
  | subAX (x : Nibble)
  /-- `AND A,XH` (R147). -/
  | andAX (x : Nibble)
  /-- `XOR A,XH` (R149). -/
  | xorAX (x : Nibble)
  /-- `OR A,XH` (R148). -/
  | orAX (x : Nibble)
  /-- `MOV R4,XH` (R190). -/
  | movR4X (x : Nibble)
  /-- `SOUND n` (R291). -/
  | soundN (n : Nibble)
  /-- `TIMER XXH` (R260). -/
  | timerXX (xx : Byte)
  /-- `SOUND ONE` (R293). -/
  | soundOne
  /-- `SOUND LOOP` (R294). -/
  | soundLoop
  /-- `SOUND OFF` (R295). -/
  | soundOff
  /-- `SOUND A` (R292). -/
  | soundA
  /-- `READ R4A` (R281). -/
  | readR4A
  /-- `READF R4A` (R283). -/
  | readFR4A
  /-- `READ MR0A` (R282). -/
  | readMR0A
  /-- `READF MR0A` (R284). -/
  | readFMR0A
  /-- `MOV R1R0,XXH` (R188): the nibbles of the first and of the second byte. -/
  | movR1R0XX (first second : Nibble)
  /-- `MOV R3R2,XXH` (R189): the nibbles of the first and of the second byte. -/
  | movR3R2XX (first second : Nibble)
  /-- `MOV A,XH` (R187). -/
  | movAX (x : Nibble)
  /-- `JAn address` (R226). -/
  | jan (n : BitVec 2) (addr : BitVec 11)
  /-- `JNZ R0,address` (R229). -/
  | jnzR0 (addr : BitVec 11)
  /-- `JNZ R1,address` (R229). -/
  | jnzR1 (addr : BitVec 11)
  /-- `JZ A,address` (R227). -/
  | jzA (addr : BitVec 11)
  /-- `JNZ A,address` (R228). -/
  | jnzA (addr : BitVec 11)
  /-- `JC address` (R223). -/
  | jc (addr : BitVec 11)
  /-- `JNC address` (R224). -/
  | jnc (addr : BitVec 11)
  /-- `JTMR address` (R225). -/
  | jtmr (addr : BitVec 11)
  /-- `JNZ R4,address` (R229). -/
  | jnzR4 (addr : BitVec 11)
  /-- `JMP address` (R222). -/
  | jmp (addr : RomAddr)
  /-- `CALL address` (R240). -/
  | call (addr : RomAddr)
  deriving DecidableEq, Repr

end Sys2Proof
end

