-- ==== Sys2Proof/WellFormed.lean ====
section
/-! DEFINITION. Well-formedness. An instruction needs no check: every operand has the exact width of its field, so
no term of `Instr` is ill formed. A configuration does: R6 lists the values each parameter may take, and 93_implementation_defined.md
U4 asks that a model refuse a configuration outside them before anything runs. A `Configuration` is options with the proof
that they pass, and State holds one, so that no machine runs with options R6 does not allow. -/

namespace Sys2Proof

/-- R6, R335, U4: pad TMCLK, or one of the thirteen dividers; 6 "is reserved for internal use". -/
def TimerSource.wf : TimerSource → Bool
  | .ext => true
  | .int n => decide (n ≤ 13) && decide (n ≠ 6)

/-- R6: the LCD drives each device can be made with; on the HT443A0 the bias goes with the supply. -/
def LcdDrive.wf (d : Device) (v : Supply) : LcdDrive → Bool
  | .duty4bias3 => decide (d = .ht44300)
  | .duty3bias3 => decide (d = .ht44300)
  | .duty8bias4 => decide (d = .ht443A0) && decide (v = .v3)
  | .duty8bias5 => decide (d = .ht443A0) && decide (v = .v5)

/-- R6, R374: the highest `F_SYS` at each supply, in kHz. -/
def Supply.maxSystemKHz : Supply → Nat
  | .v3 => 2000
  | .v5 => 4000

/-- R6: the options the hardware can be made with. -/
def MaskOptions.wf (o : MaskOptions) : Bool :=
  o.tmrSrc.wf && o.lcdDrive.wf o.device o.supply && decide (o.sndDiv ≤ 5)
    && (decide (32 ≤ o.fSysKHz) && decide (o.fSysKHz ≤ o.supply.maxSystemKHz))

/-- Options that R6 allows. -/
structure Configuration extends MaskOptions where
  legal : toMaskOptions.wf = true
  deriving DecidableEq, Repr

/-- U4: the options asked for as a configuration, or nothing: they are refused before anything runs. -/
def Configuration.make (o : MaskOptions) : Option Configuration :=
  if h : o.wf = true then some ⟨o, h⟩ else none

/-- A configuration that R6 allows. It only stands in where the options asked for are refused (log entry 2). -/
def Configuration.fallback : Configuration where
  device := .ht44300
  supply := .v3
  pullPM := false
  pullPS := false
  pullPP := false
  wakePM := 0
  wakePS := 0
  wakePP := 0
  paType := .cmos
  tmrSrc := .ext
  sndDiv := 0
  lcdDrive := .duty4bias3
  fSysKHz := 32
  immFirst := .high
  extTmrInHalt := .counts
  legal := rfl

/-- The configuration of the machine whose `State.reset` the model speaks of: any that R6 allows. DESIGN CHOICE, safe (log entry 2). -/
def Config.installedOptions : Configuration :=
  (Configuration.make Config.requestedOptions).getD Configuration.fallback

end Sys2Proof
end

