-- ==== Sys2Proof/Decode.lean ====
section
/-! DEFINITION. Decoding and encoding (spec 30_encoding.md R90 to R106). The leftmost character of a printed machine
code is bit 7 of the first byte, and the first byte stands at the lower address (R9, the spec's decision D1, log entry 14). -/

namespace Sys2Proof

/-- Bits 7 to 4 of a byte. -/
def hiNibble (b : Byte) : Nibble := b.extractLsb' 4 4

/-- Bits 3 to 0 of a byte. -/
def loNibble (b : Byte) : Nibble := b.extractLsb' 0 4

/-- Why bytes are no instruction (R105), or too few. -/
inductive DecodeReject where
  /-- First byte 35H. -/
  | undefinedFirstByte
  /-- First byte 40H..46H or 50H..6FH and a second byte whose high nibble is not 0000. -/
  | nonzeroPad
  /-- First byte 37H and a second byte other than 3EH. -/
  | undefinedSecondByte
  /-- The bytes end inside the instruction; a fetch never meets this, program memory being complete (R61). -/
  | truncated
  deriving DecidableEq, Repr

/-- First bytes 00H to 0FH that are whole instructions (R103). -/
def opcodeRow0 : List (Option Instr) :=
  [some .rrA, some .rlA, some .rrcA, some .rlcA,
   some .movAM10, some .movM10A, some .movAM32, some .movM32A,
   some .adcAM, some .addAM, some .sbcAM, some .subAM,
   some .incM10, some .decM10, some .incM32, some .decM32]

/-- First bytes 10H to 1FH that are whole instructions (R103). -/
def opcodeRow1 : List (Option Instr) :=
  [some .incR0, some .decR0, some .incR1, some .decR1,
   some .incR2, some .decR2, some .incR3, some .decR3,
   some .incR4, some .decR4, some .andAM, some .xorAM,
   some .orAM, some .andMA, some .xorMA, some .orMA]

/-- First bytes 20H to 2FH that are whole instructions (R103). -/
def opcodeRow2 : List (Option Instr) :=
  [some .movR0A, some .movAR0, some .movR1A, some .movAR1,
   some .movR2A, some .movAR2, some .movR3A, some .movAR3,
   some .movR4A, some .movAR4, some .clc, some .stc,
   some .ei, some .di, some .ret, some .reti]

/-- First bytes 30H to 3FH that are whole instructions (R103). -/
def opcodeRow3 : List (Option Instr) :=
  [some .outPAA, some .incA, some .inAPM, some .inAPS,
   some .inAPP, none, some .daa, none,
   some .timerOn, some .timerOff, some .movATmrl, some .movATmrh,
   some .movTmrlA, some .movTmrhA, some .nop, some .decA]

/-- First bytes 40H to 4FH that are whole instructions (R103). -/
def opcodeRow4 : List (Option Instr) :=
  [none, none, none, none,
   none, none, none, none,
   some .soundOne, some .soundLoop, some .soundOff, some .soundA,
   some .readR4A, some .readFR4A, some .readMR0A, some .readFMR0A]

/-- The one-byte instructions without an operand field, formats F8 and RN, by first byte (R93, R94, R103). -/
def opcodeMap : List (Option Instr) :=
  opcodeRow0 ++ opcodeRow1 ++ opcodeRow2 ++ opcodeRow3 ++ opcodeRow4

/-- The instruction that the first byte alone spells, if it is one byte long (R91, R93 to R95). -/
def decodeOneByte (b0 : Byte) : Option Instr :=
  if hiNibble b0 = 0x7 then some (.movAX (loNibble b0)) else opcodeMap.getD b0.toNat none

/-- Formats X4 and X8, first bytes 40H to 47H (R96, R97): the low three bits of the first byte select. -/
def decodeImmediate (b0 b1 : Byte) : Except DecodeReject Instr :=
  if b0 = 0x47 then .ok (.timerXX b1)
  else if hiNibble b1 ≠ 0 then .error .nonzeroPad
  else match (loNibble b0).toNat with
    | 0 => .ok (.addAX (loNibble b1))
    | 1 => .ok (.subAX (loNibble b1))
    | 2 => .ok (.andAX (loNibble b1))
    | 3 => .ok (.xorAX (loNibble b1))
    | 4 => .ok (.orAX (loNibble b1))
    | 5 => .ok (.soundN (loNibble b1))
    | _ => .ok (.movR4X (loNibble b1))

/-- The 11-bit address of format J11: three bits of the first byte, then the second byte (R100). -/
def jump11 (b0 b1 : Byte) : BitVec 11 := b0.extractLsb' 0 3 ++ b1

/-- Format J11: five opcode bits select the condition (R100). -/
def decodeConditional (b0 b1 : Byte) : Instr :=
  match (b0.extractLsb' 3 5).toNat with
  | 0b10100 => .jnzR0 (jump11 b0 b1)
  | 0b10101 => .jnzR1 (jump11 b0 b1)
  | 0b10110 => .jzA (jump11 b0 b1)
  | 0b10111 => .jnzA (jump11 b0 b1)
  | 0b11000 => .jc (jump11 b0 b1)
  | 0b11001 => .jnc (jump11 b0 b1)
  | 0b11010 => .jtmr (jump11 b0 b1)
  | 0b11011 => .jnzR4 (jump11 b0 b1)
  | _ => .jan (b0.extractLsb' 3 2) (jump11 b0 b1)

/-- The two-byte instructions, by the high nibble of the first byte (R96 to R101, R103). -/
def decodeTwoByte (b0 b1 : Byte) : Except DecodeReject Instr :=
  match (hiNibble b0).toNat with
  | 3 => if b1 = 0x3E then .ok .halt else .error .undefinedSecondByte
  | 4 => decodeImmediate b0 b1
  | 5 => if hiNibble b1 = 0 then .ok (.movR1R0XX (loNibble b0) (loNibble b1)) else .error .nonzeroPad
  | 6 => if hiNibble b1 = 0 then .ok (.movR3R2XX (loNibble b0) (loNibble b1)) else .error .nonzeroPad
  | 14 => .ok (.jmp (loNibble b0 ++ b1))
  | 15 => .ok (.call (loNibble b0 ++ b1))
  | _ => .ok (decodeConditional b0 b1)

/-- The instruction at the front of the bytes and the bytes after it, or why there is none. Total on any bytes. -/
def decode : List Byte → Except DecodeReject (Instr × List Byte)
  | [] => .error .truncated
  | b0 :: rest =>
    match decodeOneByte b0 with
    | some i => .ok (i, rest)
    | none =>
      if b0 = 0x35 then .error .undefinedFirstByte
      else match rest with
        | [] => .error .truncated
        | b1 :: rest' =>
          match decodeTwoByte b0 b1 with
          | .ok i => .ok (i, rest')
          | .error e => .error e

/-- Format J11's two bytes from its five opcode bits and its address (R100). -/
def encodeJ11 (op : BitVec 5) (addr : BitVec 11) : List Byte :=
  [op ++ addr.extractLsb' 8 3, addr.extractLsb' 0 8]

/-- Format J12's two bytes from its four opcode bits and its address (R99). -/
def encodeJ12 (op : BitVec 4) (addr : RomAddr) : List Byte :=
  [op ++ addr.extractLsb' 8 4, addr.extractLsb' 0 8]

/-- Format X4's two bytes: the pad nibble of the second byte is 0000 (R96). -/
def encodeX4 (b0 : Byte) (x : Nibble) : List Byte := [b0, (0 : Nibble) ++ x]

/-- Format P8's two bytes (R98). -/
def encodeP8 (op : Nibble) (first second : Nibble) : List Byte := [op ++ first, (0 : Nibble) ++ second]

/-- The machine code of an instruction, first byte first (R92 to R103). -/
def encode : Instr → List Byte
  | .rrA => [0x00]
  | .rlA => [0x01]
  | .rrcA => [0x02]
  | .rlcA => [0x03]
  | .movAM10 => [0x04]
  | .movM10A => [0x05]
  | .movAM32 => [0x06]
  | .movM32A => [0x07]
  | .adcAM => [0x08]
  | .addAM => [0x09]
  | .sbcAM => [0x0A]
  | .subAM => [0x0B]
  | .incM10 => [0x0C]
  | .decM10 => [0x0D]
  | .incM32 => [0x0E]
  | .decM32 => [0x0F]
  | .incR0 => [0x10]
  | .decR0 => [0x11]
  | .incR1 => [0x12]
  | .decR1 => [0x13]
  | .incR2 => [0x14]
  | .decR2 => [0x15]
  | .incR3 => [0x16]
  | .decR3 => [0x17]
  | .incR4 => [0x18]
  | .decR4 => [0x19]
  | .andAM => [0x1A]
  | .xorAM => [0x1B]
  | .orAM => [0x1C]
  | .andMA => [0x1D]
  | .xorMA => [0x1E]
  | .orMA => [0x1F]
  | .movR0A => [0x20]
  | .movAR0 => [0x21]
  | .movR1A => [0x22]
  | .movAR1 => [0x23]
  | .movR2A => [0x24]
  | .movAR2 => [0x25]
  | .movR3A => [0x26]
  | .movAR3 => [0x27]
  | .movR4A => [0x28]
  | .movAR4 => [0x29]
  | .clc => [0x2A]
  | .stc => [0x2B]
  | .ei => [0x2C]
  | .di => [0x2D]
  | .ret => [0x2E]
  | .reti => [0x2F]
  | .outPAA => [0x30]
  | .incA => [0x31]
  | .inAPM => [0x32]
  | .inAPS => [0x33]
  | .inAPP => [0x34]
  | .daa => [0x36]
  | .halt => [0x37, 0x3E]
  | .timerOn => [0x38]
  | .timerOff => [0x39]
  | .movATmrl => [0x3A]
  | .movATmrh => [0x3B]
  | .movTmrlA => [0x3C]
  | .movTmrhA => [0x3D]
  | .nop => [0x3E]
  | .decA => [0x3F]
  | .addAX x => encodeX4 0x40 x
  | .subAX x => encodeX4 0x41 x
  | .andAX x => encodeX4 0x42 x
  | .xorAX x => encodeX4 0x43 x
  | .orAX x => encodeX4 0x44 x
  | .movR4X x => encodeX4 0x46 x
  | .soundN n => encodeX4 0x45 n
  | .timerXX xx => [0x47, xx]
  | .soundOne => [0x48]
  | .soundLoop => [0x49]
  | .soundOff => [0x4A]
  | .soundA => [0x4B]
  | .readR4A => [0x4C]
  | .readFR4A => [0x4D]
  | .readMR0A => [0x4E]
  | .readFMR0A => [0x4F]
  | .movR1R0XX first second => encodeP8 0x5 first second
  | .movR3R2XX first second => encodeP8 0x6 first second
  | .movAX x => [(0x7 : Nibble) ++ x]
  | .jan n addr => encodeJ11 ((0b100 : BitVec 3) ++ n) addr
  | .jnzR0 addr => encodeJ11 0b10100 addr
  | .jnzR1 addr => encodeJ11 0b10101 addr
  | .jzA addr => encodeJ11 0b10110 addr
  | .jnzA addr => encodeJ11 0b10111 addr
  | .jc addr => encodeJ11 0b11000 addr
  | .jnc addr => encodeJ11 0b11001 addr
  | .jtmr addr => encodeJ11 0b11010 addr
  | .jnzR4 addr => encodeJ11 0b11011 addr
  | .jmp addr => encodeJ12 0b1110 addr
  | .call addr => encodeJ12 0b1111 addr

/-- The length of an instruction in bytes (R90, R91). -/
def Instr.byteLength (i : Instr) : Nat := (encode i).length

/-- R375: "every instruction takes as many machine cycles as it has bytes, except the four table reads". -/
def Instr.cycles (i : Instr) : Nat :=
  match i with
  | .readR4A | .readFR4A | .readMR0A | .readFMR0A => 2
  | _ => i.byteLength

/-- The two bytes an opcode-table word of `nbits` bits stands for, first byte first. The table numbers a two-byte row as
one 16-bit word with the first byte in its high eight bits (30_encoding.md, opening; log entry 14); a one-byte row is
followed by a byte of zeros. -/
def tableBytes (nbits w : Nat) : List Byte :=
  if nbits ≤ 8 then [BitVec.ofNat 8 w, 0] else [BitVec.ofNat 8 (w / 256), BitVec.ofNat 8 w]

/-- The instruction the decoder reads from a word of the opcode table. -/
def decodeTableWord (nbits w : Nat) : Option Instr :=
  match decode (tableBytes nbits w) with
  | .ok (i, _) => some i
  | .error _ => none

end Sys2Proof
end

