-- ==== Sys2Proof/Machine/State.lean ====
section
/-! DEFINITION. The state of the machine (spec 10_state.md R20), the reasons a step can stop, and the state after reset. -/

namespace Sys2Proof.Machine

/-- `SUB` (R34): whether the program is within a `CALL` subroutine or an interrupt routine. -/
inductive SubMode where
  | main
  | called
  | isr
  deriving DecidableEq, Repr

/-- `SND.mode` (R39): the singing mode. -/
inductive SingMode where
  | one
  | loop
  deriving DecidableEq, Repr

/-- What the surroundings do to one input pin (R38): drive it low or high, or leave it unconnected. -/
inductive PinDrive where
  | low
  | high
  | floating
  deriving DecidableEq, Repr

/-- The four pins of an input port (R38). -/
structure PortPins where
  p0 : PinDrive
  p1 : PinDrive
  p2 : PinDrive
  p3 : PinDrive
  deriving DecidableEq, Repr

/-- The twelve input pins (R38). -/
structure InputPins where
  pm : PortPins
  ps : PortPins
  pp : PortPins
  deriving DecidableEq, Repr

/-- What moves next (R12, R320): the processor, or one event of its surroundings. -/
inductive EnvEvent where
  /-- The processor has its turn. -/
  | processor
  /-- One rising edge of the selected timer clock (R334). -/
  | timerClock
  /-- A high-to-low transition of pad INT-bar (R312). -/
  | intFalls
  /-- A pin of an input port comes under another drive (R331). -/
  | pinChange (port : InPort) (pin : Fin 4) (drive : PinDrive)
  /-- Pad RES-bar returns high after a reset pulse (R360). -/
  | resetPulse
  /-- The sound circuit reaches the end of a sound (R12, R290). -/
  | soundEnds
  deriving DecidableEq, Repr

/-- Everything a step reads or writes. -/
structure State where
  /-- `ACC` (R22). -/
  acc : Nibble
  /-- The working registers `R[0]` to `R[4]` (R21). -/
  r0 : Nibble
  r1 : Nibble
  r2 : Nibble
  r3 : Nibble
  r4 : Nibble
  /-- `PC` (R24). -/
  pc : RomAddr
  /-- `STK.pc` (R27). -/
  stkPc : RomAddr
  /-- `STK.cf` (R27). -/
  stkCf : Bool
  /-- `CF` (R28). -/
  cf : Bool
  /-- `TF` (R29). -/
  tf : Bool
  /-- `TMR` (R30). -/
  tmr : Byte
  /-- `TON` (R31). -/
  ton : Bool
  /-- `IE` (R32). -/
  ie : Bool
  /-- `EXTF` (R33). -/
  extf : Bool
  /-- `SUB` (R34). -/
  sub : SubMode
  /-- `HALTED` (R35). -/
  halted : Bool
  /-- `PA` (R37). -/
  pa : Nibble
  /-- `SND.ch` (R39). -/
  sndCh : Nibble
  /-- `SND.mode` (R39). -/
  sndMode : SingMode
  /-- `SND.on` (R39). -/
  sndOn : Bool
  /-- `DM` (R41, R42): the data cells written since the last reset, addresses rising, each nibble in a byte's low half. -/
  dm : List Host.Cell
  /-- `ROM` (R40): the program bytes placed in the mask, addresses rising. -/
  rom : List Host.Cell
  /-- The mask options and open parameters (R6), of values R6 allows only (U4). -/
  opts : Configuration
  /-- The levels on the input pins (R20, R38). -/
  pins : InputPins
  /-- What moves next, first first; when the list is empty the processor moves (R320; log entry 6). -/
  schedule : List EnvEvent
  /-- The model's own: how many free values have been drawn (log entry 5). -/
  freeCount : Nat
  /-- The model's own: how many resets have made data memory unspecified (log entry 5). -/
  ramEpoch : Nat
  deriving DecidableEq, Repr

/-- The places where the spec gives no next state: its `fault(reason)` marks (R310, 93_implementation_defined.md). -/
inductive Fault where
  /-- `fault(UndefinedDataAddress)`: raised by every data access in the gap between the two data areas (R43, R63, R64). Safe:
  the model stops where the hardware does something unknown. -/
  | undefinedDataAddress (a : DataAddr)
  /-- `fault(CallInInterruptRoutine)`: raised by `CALL` while `SUB = ISR` (R240, R323). Safe, for the same reason. -/
  | callInInterruptRoutine
  /-- `fault(UndefinedEncoding)`: raised by the step when the bytes at `PC` are no instruction (R105). Safe, for the same reason. -/
  | undefinedEncoding (pc : RomAddr)
  deriving DecidableEq, Repr

/-- The model's own reason to stop without a meaning. -/
inductive Refusal where
  /-- Raised by an arm of `exec` whose instruction has no meaning yet: no arm does. Safe. -/
  | notModelled (mnemonic : String)
  deriving DecidableEq, Repr

/-- What a step, or an instruction's meaning, answers. -/
abbrev Result := Host.Outcome State Fault Refusal

/-- A port with nothing connected to it. -/
def PortPins.allFloating : PortPins := ⟨.floating, .floating, .floating, .floating⟩

/-- The machine of a configuration right after reset (R45, R361). `ACC`, `R0..R4`, `STK`, `TMR` and `SND.ch` are
zero by DESIGN CHOICE (unsafe, log entry 3); no data cell has been written (log entry 4); no pin is connected (log entry 9);
nothing is scheduled (log entry 6); no program byte is placed (log entry 1). -/
def State.resetWith (o : Configuration) : State where
  acc := 0
  r0 := 0
  r1 := 0
  r2 := 0
  r3 := 0
  r4 := 0
  pc := 0x000
  stkPc := 0
  stkCf := false
  cf := false
  tf := false
  tmr := 0
  ton := false
  ie := false
  extf := false
  sub := .main
  halted := false
  pa := 0xF
  sndCh := 0
  sndMode := .one
  sndOn := false
  dm := []
  rom := []
  opts := o
  pins := ⟨.allFloating, .allFloating, .allFloating⟩
  schedule := []
  freeCount := 0
  ramEpoch := 0

/-- U4: the machine right after reset for options asked for, or none where R6 does not allow them. -/
def State.resetFor (o : MaskOptions) : Option State := (Configuration.make o).map State.resetWith

/-- The machine right after reset, whatever options it was made with (log entry 2). -/
def State.reset : State := State.resetWith Config.installedOptions

end Sys2Proof.Machine
end

