-- ==== Sys2Proof/Machine/Memory.lean ====
section
/-! DEFINITION. Memory as a list of address and byte pairs in one canonical form, and the address map of data
memory (spec 10_state.md R42). An unlisted address holds no value in the list: what reading it gives is said once for
each memory, in Machine/Ops.lean (`cellValue`, `romRead`). -/

namespace Sys2Proof.Machine

/-- The byte listed for an address. -/
def Memory.lookup : List Host.Cell → Nat → Option Byte
  | [], _ => none
  | (k, b) :: rest, a => if a = k then some b else Memory.lookup rest a

/-- List a byte for an address, in place of the one listed before. -/
def Memory.store : List Host.Cell → Nat → Byte → List Host.Cell
  | [], a, b => [(a, b)]
  | (k, c) :: rest, a, b =>
    if a < k then (a, b) :: (k, c) :: rest
    else if a = k then (a, b) :: rest
    else (k, c) :: Memory.store rest a b

/-- Every listed address is above `a`, and they rise strictly. -/
def Memory.risesFrom : Nat → List Host.Cell → Bool
  | _, [] => true
  | a, (k, _) :: rest => decide (a < k) && Memory.risesFrom k rest

/-- The canonical form: addresses strictly rising. As an unlisted address holds no value, no entry can equal it. -/
def Memory.wf : List Host.Cell → Bool
  | [] => true
  | (k, _) :: rest => Memory.risesFrom k rest

/-- R42: the addresses that hold memory. 00H to 7FH and E0H to FFH exist on both devices; 80H to 9FH and B0H to DFH on
the HT443A0 only; A0H to AFH on neither. -/
def populated (d : Device) (a : DataAddr) : Bool :=
  decide (a.toNat ≤ 0x7F) || decide (0xE0 ≤ a.toNat)
    || (decide (d = .ht443A0) && (decide (a.toNat ≤ 0x9F) || decide (0xB0 ≤ a.toNat)))

/-- R42: the display data area. -/
def displayArea (d : Device) (a : DataAddr) : Bool :=
  decide (0xE0 ≤ a.toNat) || (decide (d = .ht443A0) && decide (0xB0 ≤ a.toNat))

/-- The canonical form of data memory: rising, every entry a populated cell that holds a nibble (R41, R42). -/
def dataWf (d : Device) (m : List Host.Cell) : Bool :=
  Memory.wf m && m.all fun c => decide (c.1 < 256) && populated d (BitVec.ofNat 8 c.1) && decide (c.2.toNat < 16)

/-- The canonical form of program memory: rising, every address of 12 bits (R40). -/
def romWf (m : List Host.Cell) : Bool :=
  Memory.wf m && m.all fun c => decide (c.1 < 4096)

end Sys2Proof.Machine
end

