-- ==== Sys2Proof/Machine/Ops.lean ====
section
/-! DEFINITION. The named operations over memory, registers, ports and the stack register, and interrupt entry and
return, written once and used by every meaning. -/

namespace Sys2Proof.Machine

/-! ### Free values -/

/-- The free value of width `w` that the next draw gives (R46, R336, U8, U9). -/
def freeBits (s : State) (w : Nat) : BitVec w := Config.freeValue w s.freeCount

/-- The state once that value has been drawn. -/
def drawn (s : State) : State := { s with freeCount := s.freeCount + 1 }

/-! ### Program counter -/

/-- `PC <- next` after `n` bytes; the counter has 12 bits, so it counts modulo 4096 (R25, D3). -/
def advance (s : State) (n : Nat) : State := { s with pc := s.pc + BitVec.ofNat 12 n }

/-! ### Memory -/

/-- `RomRead(a)` (R61): the byte placed at `a`, or whatever the mask holds there (log entry 1). -/
def romRead (s : State) (a : RomAddr) : Byte :=
  (Memory.lookup s.rom a.toNat).getD (Config.maskRom a)

/-- `DM[a]` of a populated cell: the nibble last written, or any value when nothing has written the cell since
the last reset (R46, R63, R75; log entry 4). -/
def cellValue (s : State) (a : DataAddr) : Nibble :=
  match Memory.lookup s.dm a.toNat with
  | some b => loNibble b
  | none => Config.unwrittenCell s.ramEpoch a

/-- `DM[a] <- v` for a populated cell (R64). -/
def setCell (s : State) (a : DataAddr) (v : Nibble) : State :=
  { s with dm := Memory.store s.dm a.toNat ((0 : Nibble) ++ v) }

/-- `MemRead(a, 1)` (R63): go on with the cell's value, or fault in the gap (R43, D7). -/
def readCell (s : State) (a : DataAddr) (k : Nibble → Result) : Result :=
  if populated s.opts.device a then k (cellValue s a) else .fault (.undefinedDataAddress a)

/-- `MemWrite(a, 1, v)` (R64): the state with the cell written, or a fault in the gap (R43, D7). -/
def writeCell (s : State) (a : DataAddr) (v : Nibble) : Result :=
  if populated s.opts.device a then .next (setCell s a v) else .fault (.undefinedDataAddress a)

/-! ### Ports -/

/-- The pins of a port. -/
def portPins (s : State) : InPort → PortPins
  | .pm => s.pins.pm
  | .ps => s.pins.ps
  | .pp => s.pins.pp

/-- The level of one pin, high as true (R38, R66, D16): an unconnected pin reads 1 with its pull-high resistor and
`free` without (U9). -/
def pinLevel (pull free : Bool) : PinDrive → Bool
  | .low => false
  | .high => true
  | .floating => pull || free

/-- `PortRead(p)` (R66): pin `i` in bit `i`; `free` supplies the level of pins that have none. -/
def portRead (s : State) (p : InPort) (free : Nibble) : Nibble :=
  let q := portPins s p
  let pull := s.opts.pullUp p
  BitVec.ofBool (pinLevel pull (free.getLsbD 3) q.p3) ++ BitVec.ofBool (pinLevel pull (free.getLsbD 2) q.p2)
    ++ BitVec.ofBool (pinLevel pull (free.getLsbD 1) q.p1) ++ BitVec.ofBool (pinLevel pull (free.getLsbD 0) q.p0)

/-! ### Interrupts -/

/-- The two interrupt sources (R311). -/
inductive IntSource where
  | external
  | timer
  deriving DecidableEq, Repr

/-- R317: the interrupt accepted at an instruction boundary, the external one first (R316). -/
def acceptedInterrupt (s : State) : Option IntSource :=
  if s.halted = false ∧ s.ie = true ∧ s.sub = .main then
    if s.extf then some .external else if s.tf then some .timer else none
  else none

/-- R318: interrupt entry saves `PC` and `CF` in the stack register, records the routine, clears the request and loads
the source's fixed address. `IE` is not touched (the spec's decision D9, log entry 17). -/
def enterInterrupt (src : IntSource) (s : State) : State :=
  match src with
  | .external => { s with stkPc := s.pc, stkCf := s.cf, sub := .isr, extf := false, pc := 0x008 }
  | .timer => { s with stkPc := s.pc, stkCf := s.cf, sub := .isr, tf := false, pc := 0x004 }

/-- R241, R242, R321: a return copies `STK.pc` to `PC` and ends the hold on interrupts; `RETI` also restores `CF`. -/
def returnFromStack (restoreCarry : Bool) (s : State) : State :=
  { s with pc := s.stkPc, cf := (if restoreCarry then s.stkCf else s.cf), sub := .main }

end Sys2Proof.Machine
end

