-- ==== Sys2Proof/Machine/Operands.lean ====
section
/-! DEFINITION. The operand forms (spec 10_state.md R21, R23; 30_encoding.md R98, R102; 45_branch.md R220, R221;
48_tableread.md R280). -/

namespace Sys2Proof.Machine

/-- The five working registers (R21). -/
inductive Reg where
  | r0
  | r1
  | r2
  | r3
  | r4
  deriving DecidableEq, Repr

/-- `R[n]`. -/
def getReg (s : State) : Reg → Nibble
  | .r0 => s.r0
  | .r1 => s.r1
  | .r2 => s.r2
  | .r3 => s.r3
  | .r4 => s.r4

/-- `R[n] <- v`: no other register changes (R23, R48). -/
def setReg (s : State) (r : Reg) (v : Nibble) : State :=
  match r with
  | .r0 => { s with r0 := v }
  | .r1 => { s with r1 := v }
  | .r2 => { s with r2 := v }
  | .r3 => { s with r3 := v }
  | .r4 => { s with r4 := v }

/-- `P10 = {R[1], R[0]}` (R10, R23). -/
def p10 (s : State) : DataAddr := s.r1 ++ s.r0

/-- `P32 = {R[3], R[2]}` (R10, R23). -/
def p32 (s : State) : DataAddr := s.r3 ++ s.r2

/-- R98: the 8-bit immediate from the nibbles of the first and of the second byte. -/
def pairImmediate (o : NibbleOrder) (first second : Nibble) : Byte :=
  match o with
  | .high => first ++ second
  | .low => second ++ first

/-- R221: the target of a conditional jump keeps bit 11 of `next`, the counter being advanced before the execution
phase (R25, the spec's decision D4, log entry 15). -/
def condTarget (s : State) (addr : BitVec 11) : RomAddr := (s.pc + 2).extractLsb' 11 1 ++ addr

/-- R280: the current page, bits 11 to 8 of `next` (the spec's decision D5, log entry 15). -/
def currentPage (s : State) : Nibble := (s.pc + 1).extractLsb' 8 4

/-- R280: the table address `{page, ACC, low}`. -/
def tableAddr (page acc low : Nibble) : RomAddr := page ++ acc ++ low

end Sys2Proof.Machine
end

