-- ==== Sys2Proof/Machine/Arith.lean ====
section
/-! DEFINITION. Arithmetic instructions (spec 40_arithmetic.md R120 to R128). -/

namespace Sys2Proof.Machine

/-- Advance past an instruction of `n` bytes and put an ALU result in `ACC` and `CF`. -/
def setAccCarry (s : State) (n : Nat) (r : AluResult) : State :=
  { advance s n with acc := r.value, cf := r.carry }

/-- R121 `ADD A,[R1R0]`. -/
def execAddAM (s : State) : Result :=
  readCell s (p10 s) fun m => .next (setAccCarry s 1 (adder s.acc m false))

/-- R122 `ADC A,[R1R0]`. -/
def execAdcAM (s : State) : Result :=
  readCell s (p10 s) fun m => .next (setAccCarry s 1 (adder s.acc m s.cf))

/-- R123 `SUB A,[R1R0]`. -/
def execSubAM (s : State) : Result :=
  readCell s (p10 s) fun m => .next (setAccCarry s 1 (subtracter s.acc m true))

/-- R124 `SBC A,[R1R0]`. -/
def execSbcAM (s : State) : Result :=
  readCell s (p10 s) fun m => .next (setAccCarry s 1 (subtracter s.acc m s.cf))

/-- R125 `ADD A,XH`. -/
def execAddAX (x : Nibble) (s : State) : Result := .next (setAccCarry s 2 (adder s.acc x false))

/-- R126 `SUB A,XH`. -/
def execSubAX (x : Nibble) (s : State) : Result := .next (setAccCarry s 2 (subtracter s.acc x true))

/-- R127 `DAA`. -/
def execDaa (s : State) : Result := .next (setAccCarry s 1 (decimalAdjust s.acc s.cf))

end Sys2Proof.Machine
end

