-- ==== Sys2Proof/Machine/Branch.lean ====
section
/-! DEFINITION. Branch instructions (spec 45_branch.md R220 to R231). -/

namespace Sys2Proof.Machine

/-- R221: a conditional jump loads the target when the condition holds and `next` otherwise. -/
def branchIf (c : Bool) (addr : BitVec 11) (s : State) : State :=
  if c then { s with pc := condTarget s addr } else advance s 2

/-- R222 `JMP address`. -/
def execJmp (addr : RomAddr) (s : State) : Result := .next { s with pc := addr }

/-- R223 `JC address`. -/
def execJc (addr : BitVec 11) (s : State) : Result := .next (branchIf s.cf addr s)

/-- R224 `JNC address`. -/
def execJnc (addr : BitVec 11) (s : State) : Result := .next (branchIf (!s.cf) addr s)

/-- R225 `JTMR address`: tests `TF` and clears it, taken or not (the spec's decision D19, log entry 19). -/
def execJtmr (addr : BitVec 11) (s : State) : Result := .next { branchIf s.tf addr s with tf := false }

/-- R226 `JAn address`. -/
def execJan (n : BitVec 2) (addr : BitVec 11) (s : State) : Result := .next (branchIf (s.acc.getLsbD n.toNat) addr s)

/-- R227 `JZ A,address`. -/
def execJzA (addr : BitVec 11) (s : State) : Result := .next (branchIf (decide (s.acc = 0)) addr s)

/-- R228 `JNZ A,address`. -/
def execJnzA (addr : BitVec 11) (s : State) : Result := .next (branchIf (decide (s.acc ≠ 0)) addr s)

/-- Jump if the register is not zero (R229): the register is tested, not changed. -/
def jumpIfReg (r : Reg) (addr : BitVec 11) (s : State) : Result :=
  .next (branchIf (decide (getReg s r ≠ 0)) addr s)

/-- R229 `JNZ R0,address`. -/
def execJnzR0 (addr : BitVec 11) (s : State) : Result := jumpIfReg .r0 addr s

/-- R229 `JNZ R1,address`. -/
def execJnzR1 (addr : BitVec 11) (s : State) : Result := jumpIfReg .r1 addr s

/-- R229 `JNZ R4,address`. -/
def execJnzR4 (addr : BitVec 11) (s : State) : Result := jumpIfReg .r4 addr s

end Sys2Proof.Machine
end

