-- ==== Sys2Proof/Machine/Logic.lean ====
section
/-! DEFINITION. Logic operation instructions (spec 41_logic.md R140 to R149). -/

namespace Sys2Proof.Machine

/-- `ACC <- op ACC v` after an instruction of `n` bytes; no flag changes (R140). -/
def setAcc (s : State) (n : Nat) (v : Nibble) : State := { advance s n with acc := v }

/-- `a` is read, `f` of the cell is written back, in one step (R65). -/
def updateCell (s : State) (a : DataAddr) (f : Nibble → Nibble) : Result :=
  readCell s a fun m => writeCell (advance s 1) a (f m)

/-- R141 `AND A,[R1R0]`. -/
def execAndAM (s : State) : Result := readCell s (p10 s) fun m => .next (setAcc s 1 (s.acc &&& m))

/-- R142 `OR A,[R1R0]`. -/
def execOrAM (s : State) : Result := readCell s (p10 s) fun m => .next (setAcc s 1 (s.acc ||| m))

/-- R143 `XOR A,[R1R0]`. -/
def execXorAM (s : State) : Result := readCell s (p10 s) fun m => .next (setAcc s 1 (s.acc ^^^ m))

/-- R144 `AND [R1R0],A`. -/
def execAndMA (s : State) : Result := updateCell s (p10 s) fun m => m &&& s.acc

/-- R145 `OR [R1R0],A`. -/
def execOrMA (s : State) : Result := updateCell s (p10 s) fun m => m ||| s.acc

/-- R146 `XOR [R1R0],A`. -/
def execXorMA (s : State) : Result := updateCell s (p10 s) fun m => m ^^^ s.acc

/-- R147 `AND A,XH`. -/
def execAndAX (x : Nibble) (s : State) : Result := .next (setAcc s 2 (s.acc &&& x))

/-- R148 `OR A,XH`. -/
def execOrAX (x : Nibble) (s : State) : Result := .next (setAcc s 2 (s.acc ||| x))

/-- R149 `XOR A,XH`. -/
def execXorAX (x : Nibble) (s : State) : Result := .next (setAcc s 2 (s.acc ^^^ x))

end Sys2Proof.Machine
end

