-- ==== Sys2Proof/Machine/DataMove.lean ====
section
/-! DEFINITION. Data move instructions (spec 43_datamove.md R180 to R190). -/

namespace Sys2Proof.Machine

/-- R183 `MOV A,[R1R0]`. -/
def execMovAM10 (s : State) : Result := readCell s (p10 s) fun m => .next (setAcc s 1 m)

/-- R184 `MOV A,[R3R2]`. -/
def execMovAM32 (s : State) : Result := readCell s (p32 s) fun m => .next (setAcc s 1 m)

/-- R185 `MOV [R1R0],A`. -/
def execMovM10A (s : State) : Result := writeCell (advance s 1) (p10 s) s.acc

/-- R186 `MOV [R3R2],A`. -/
def execMovM32A (s : State) : Result := writeCell (advance s 1) (p32 s) s.acc

/-- R187 `MOV A,XH`. -/
def execMovAX (x : Nibble) (s : State) : Result := .next (setAcc s 1 x)

/-- R188 `MOV R1R0,XXH`: the high nibble goes to R1, the low nibble to R0, in one step. -/
def execMovR1R0XX (first second : Nibble) (s : State) : Result :=
  let xx := pairImmediate s.opts.immFirst first second
  .next { advance s 2 with r1 := hiNibble xx, r0 := loNibble xx }

/-- R189 `MOV R3R2,XXH`: the high nibble goes to R3, the low nibble to R2, in one step. -/
def execMovR3R2XX (first second : Nibble) (s : State) : Result :=
  let xx := pairImmediate s.opts.immFirst first second
  .next { advance s 2 with r3 := hiNibble xx, r2 := loNibble xx }

/-- R190 `MOV R4,XH`. -/
def execMovR4X (x : Nibble) (s : State) : Result := .next (setReg (advance s 2) .r4 x)

/-- `ACC <- R[n]` (R181). -/
def moveFromReg (s : State) (r : Reg) : Result := .next (setAcc s 1 (getReg s r))

/-- `R[n] <- ACC` (R182). -/
def moveToReg (s : State) (r : Reg) : Result := .next (setReg (advance s 1) r s.acc)

/-- R181 `MOV A,R0`. -/
def execMovAR0 (s : State) : Result := moveFromReg s .r0

/-- R181 `MOV A,R1`. -/
def execMovAR1 (s : State) : Result := moveFromReg s .r1

/-- R181 `MOV A,R2`. -/
def execMovAR2 (s : State) : Result := moveFromReg s .r2

/-- R181 `MOV A,R3`. -/
def execMovAR3 (s : State) : Result := moveFromReg s .r3

/-- R181 `MOV A,R4`. -/
def execMovAR4 (s : State) : Result := moveFromReg s .r4

/-- R182 `MOV R0,A`. -/
def execMovR0A (s : State) : Result := moveToReg s .r0

/-- R182 `MOV R1,A`. -/
def execMovR1A (s : State) : Result := moveToReg s .r1

/-- R182 `MOV R2,A`. -/
def execMovR2A (s : State) : Result := moveToReg s .r2

/-- R182 `MOV R3,A`. -/
def execMovR3A (s : State) : Result := moveToReg s .r3

/-- R182 `MOV R4,A`. -/
def execMovR4A (s : State) : Result := moveToReg s .r4

end Sys2Proof.Machine
end

