-- ==== Sys2Proof/Machine/IncDec.lean ====
section
/-! DEFINITION. Increment and decrement instructions (spec 42_incdec.md R160 to R168). -/

namespace Sys2Proof.Machine

/-- R161, R162: one up, cut to 4 bits. -/
def incNibble (v : Nibble) : Nibble := v + 1

/-- R165, R166: one down, cut to 4 bits (the spec adds 15 modulo 16). -/
def decNibble (v : Nibble) : Nibble := v + 15

/-- `R[n] <- f R[n]`; no flag changes and no other register does (R160, R162). -/
def updateReg (s : State) (r : Reg) (f : Nibble → Nibble) : Result :=
  .next (setReg (advance s 1) r (f (getReg s r)))

/-- R161 `INC A`. -/
def execIncA (s : State) : Result := .next (setAcc s 1 (incNibble s.acc))

/-- R165 `DEC A`. -/
def execDecA (s : State) : Result := .next (setAcc s 1 (decNibble s.acc))

/-- R163 `INC [R1R0]`. -/
def execIncM10 (s : State) : Result := updateCell s (p10 s) incNibble

/-- R164 `INC [R3R2]`. -/
def execIncM32 (s : State) : Result := updateCell s (p32 s) incNibble

/-- R167 `DEC [R1R0]`. -/
def execDecM10 (s : State) : Result := updateCell s (p10 s) decNibble

/-- R168 `DEC [R3R2]`. -/
def execDecM32 (s : State) : Result := updateCell s (p32 s) decNibble

/-- R162 `INC R0`. -/
def execIncR0 (s : State) : Result := updateReg s .r0 incNibble

/-- R162 `INC R1`. -/
def execIncR1 (s : State) : Result := updateReg s .r1 incNibble

/-- R162 `INC R2`. -/
def execIncR2 (s : State) : Result := updateReg s .r2 incNibble

/-- R162 `INC R3`. -/
def execIncR3 (s : State) : Result := updateReg s .r3 incNibble

/-- R162 `INC R4`. -/
def execIncR4 (s : State) : Result := updateReg s .r4 incNibble

/-- R166 `DEC R0`. -/
def execDecR0 (s : State) : Result := updateReg s .r0 decNibble

/-- R166 `DEC R1`. -/
def execDecR1 (s : State) : Result := updateReg s .r1 decNibble

/-- R166 `DEC R2`. -/
def execDecR2 (s : State) : Result := updateReg s .r2 decNibble

/-- R166 `DEC R3`. -/
def execDecR3 (s : State) : Result := updateReg s .r3 decNibble

/-- R166 `DEC R4`. -/
def execDecR4 (s : State) : Result := updateReg s .r4 decNibble

end Sys2Proof.Machine
end

