-- ==== Sys2Proof/Machine/RotateIO.lean ====
section
/-! DEFINITION. Rotate and input/output instructions (spec 44_rotate_io.md R200 to R206). -/

namespace Sys2Proof.Machine

/-- R201 `RL A`. -/
def execRlA (s : State) : Result := .next (setAccCarry s 1 (rotateLeft s.acc))

/-- R202 `RLC A`. -/
def execRlcA (s : State) : Result := .next (setAccCarry s 1 (rotateLeftCarry s.acc s.cf))

/-- R203 `RR A`. -/
def execRrA (s : State) : Result := .next (setAccCarry s 1 (rotateRight s.acc))

/-- R204 `RRC A`. -/
def execRrcA (s : State) : Result := .next (setAccCarry s 1 (rotateRightCarry s.acc s.cf))

/-- `ACC <- PortRead(p)` (R205): the pins as they are now; pins with no level read a free value, drawn anew (log entry 9). -/
def inputPort (s : State) (p : InPort) : Result :=
  .next (setAcc (drawn s) 1 (portRead s p (freeBits s 4)))

/-- R205 `IN A,PM`. -/
def execInAPM (s : State) : Result := inputPort s .pm

/-- R205 `IN A,PS`. -/
def execInAPS (s : State) : Result := inputPort s .ps

/-- R205 `IN A,PP`. -/
def execInAPP (s : State) : Result := inputPort s .pp

/-- R206 `OUT PA,A`. -/
def execOutPAA (s : State) : Result := .next { advance s 1 with pa := s.acc }

end Sys2Proof.Machine
end

