-- ==== Sys2Proof/Machine/SoundMisc.lean ====
section
/-! DEFINITION. Sound control and miscellaneous instructions (spec 49_sound_misc.md R290 to R297). -/

namespace Sys2Proof.Machine

/-- A sound begins, in place of one that plays (R291). -/
def startSound (s : State) (ch : Nibble) : State := { s with sndCh := ch, sndOn := true }

/-- R291 `SOUND n`. -/
def execSoundN (n : Nibble) (s : State) : Result := .next (startSound (advance s 2) n)

/-- R292 `SOUND A`. -/
def execSoundA (s : State) : Result := .next (startSound (advance s 1) s.acc)

/-- R293 `SOUND ONE`: selects the mode, starts nothing. -/
def execSoundOne (s : State) : Result := .next { advance s 1 with sndMode := .one }

/-- R294 `SOUND LOOP`: selects the mode, starts nothing. -/
def execSoundLoop (s : State) : Result := .next { advance s 1 with sndMode := .loop }

/-- R295 `SOUND OFF`. -/
def execSoundOff (s : State) : Result := .next { advance s 1 with sndOn := false }

/-- R297 `HALT`: `PC` already holds the address after the instruction. -/
def execHalt (s : State) : Result := .next { advance s 2 with halted := true }

end Sys2Proof.Machine
end

