-- ==== Sys2Proof/Machine/Subroutine.lean ====
section
/-! DEFINITION. Subroutine and flag instructions (spec 46_subroutine_flag.md R240 to R247). -/

namespace Sys2Proof.Machine

/-- R240 `CALL address`: the return address goes to `STK.pc`, the carry is not saved; within an interrupt routine the
source calls the behaviour unpredictable and gives no effect (R323, the spec's decision D11, log entry 11). -/
def execCall (addr : RomAddr) (s : State) : Result :=
  match s.sub with
  | .isr => .fault .callInInterruptRoutine
  | .main | .called => .next { s with stkPc := s.pc + 2, sub := .called, pc := addr }

/-- R241 `RET`. -/
def execRet (s : State) : Result := .next (returnFromStack false s)

/-- R242 `RETI`. -/
def execReti (s : State) : Result := .next (returnFromStack true s)

/-- R243 `CLC`. -/
def execClc (s : State) : Result := .next { advance s 1 with cf := false }

/-- R244 `STC`. -/
def execStc (s : State) : Result := .next { advance s 1 with cf := true }

/-- R245 `EI`. -/
def execEi (s : State) : Result := .next { advance s 1 with ie := true }

/-- R246 `DI`: pending requests stay. -/
def execDi (s : State) : Result := .next { advance s 1 with ie := false }

/-- R247 `NOP`. -/
def execNop (s : State) : Result := .next (advance s 1)

end Sys2Proof.Machine
end

