-- ==== Sys2Proof/Machine/TableRead.lean ====
section
/-! DEFINITION. Table read instructions (spec 48_tableread.md R280 to R285). All reads happen before all writes (R280). -/

namespace Sys2Proof.Machine

/-- R281, R283: the data cell gives the low address nibble; the byte goes to R4 and `ACC`. -/
def tableToR4 (page : Nibble) (s : State) : Result :=
  readCell s (p10 s) fun low =>
    let code := romRead s (tableAddr page s.acc low)
    .next { advance s 1 with r4 := hiNibble code, acc := loNibble code }

/-- R282, R284: R4 gives the low address nibble; the byte goes to the data cell and `ACC`. -/
def tableToMem (page : Nibble) (s : State) : Result :=
  let code := romRead s (tableAddr page s.acc s.r4)
  writeCell { advance s 1 with acc := loNibble code } (p10 s) (hiNibble code)

/-- R281 `READ R4A`. -/
def execReadR4A (s : State) : Result := tableToR4 (currentPage s) s

/-- R283 `READF R4A`. -/
def execReadFR4A (s : State) : Result := tableToR4 0xF s

/-- R282 `READ MR0A`. -/
def execReadMR0A (s : State) : Result := tableToMem (currentPage s) s

/-- R284 `READF MR0A`. -/
def execReadFMR0A (s : State) : Result := tableToMem 0xF s

end Sys2Proof.Machine
end

