-- ==== Sys2Proof/Machine/Timer.lean ====
section
/-! DEFINITION. Timer instructions (spec 47_timer.md R260 to R267). -/

namespace Sys2Proof.Machine

/-- R336, R368: reading a timer that runs from an external clock gives any 4-bit value (U8). -/
def timerReadOpen (s : State) : Bool := s.ton && decide (s.opts.tmrSrc = .ext)

/-- Read one nibble of the timer to `ACC`: exact, or a free value where the spec leaves it open (R263, R336). -/
def readTimer (s : State) (exact : Nibble) : Result :=
  if timerReadOpen s then .next (setAcc (drawn s) 1 (freeBits s 4)) else .next (setAcc s 1 exact)

/-- R260 `TIMER XXH`. -/
def execTimerXX (xx : Byte) (s : State) : Result := .next { advance s 2 with tmr := xx }

/-- R261 `TIMER ON`. -/
def execTimerOn (s : State) : Result := .next { advance s 1 with ton := true }

/-- R262 `TIMER OFF`. -/
def execTimerOff (s : State) : Result := .next { advance s 1 with ton := false }

/-- R263 `MOV A,TMRL`. -/
def execMovATmrl (s : State) : Result := readTimer s (loNibble s.tmr)

/-- R264 `MOV A,TMRH`. -/
def execMovATmrh (s : State) : Result := readTimer s (hiNibble s.tmr)

/-- R265 `MOV TMRL,A`. -/
def execMovTmrlA (s : State) : Result := .next { advance s 1 with tmr := hiNibble s.tmr ++ s.acc }

/-- R266 `MOV TMRH,A`. -/
def execMovTmrhA (s : State) : Result := .next { advance s 1 with tmr := s.acc ++ loNibble s.tmr }

end Sys2Proof.Machine
end

