-- ==== Sys2Proof/Machine/Dispatch.lean ====
section
/-! DEFINITION. The meaning of each instruction, one arm per constructor (spec 30_encoding.md R103). -/

namespace Sys2Proof.Machine

def exec (i : Instr) (s : State) : Host.Outcome State Fault Refusal :=
  match i with
  | .rrA => Sys2Proof.Machine.execRrA s
  | .rlA => Sys2Proof.Machine.execRlA s
  | .rrcA => Sys2Proof.Machine.execRrcA s
  | .rlcA => Sys2Proof.Machine.execRlcA s
  | .movAM10 => Sys2Proof.Machine.execMovAM10 s
  | .movM10A => Sys2Proof.Machine.execMovM10A s
  | .movAM32 => Sys2Proof.Machine.execMovAM32 s
  | .movM32A => Sys2Proof.Machine.execMovM32A s
  | .adcAM => Sys2Proof.Machine.execAdcAM s
  | .addAM => Sys2Proof.Machine.execAddAM s
  | .sbcAM => Sys2Proof.Machine.execSbcAM s
  | .subAM => Sys2Proof.Machine.execSubAM s
  | .incM10 => Sys2Proof.Machine.execIncM10 s
  | .decM10 => Sys2Proof.Machine.execDecM10 s
  | .incM32 => Sys2Proof.Machine.execIncM32 s
  | .decM32 => Sys2Proof.Machine.execDecM32 s
  | .incR0 => Sys2Proof.Machine.execIncR0 s
  | .decR0 => Sys2Proof.Machine.execDecR0 s
  | .incR1 => Sys2Proof.Machine.execIncR1 s
  | .decR1 => Sys2Proof.Machine.execDecR1 s
  | .incR2 => Sys2Proof.Machine.execIncR2 s
  | .decR2 => Sys2Proof.Machine.execDecR2 s
  | .incR3 => Sys2Proof.Machine.execIncR3 s
  | .decR3 => Sys2Proof.Machine.execDecR3 s
  | .incR4 => Sys2Proof.Machine.execIncR4 s
  | .decR4 => Sys2Proof.Machine.execDecR4 s
  | .andAM => Sys2Proof.Machine.execAndAM s
  | .xorAM => Sys2Proof.Machine.execXorAM s
  | .orAM => Sys2Proof.Machine.execOrAM s
  | .andMA => Sys2Proof.Machine.execAndMA s
  | .xorMA => Sys2Proof.Machine.execXorMA s
  | .orMA => Sys2Proof.Machine.execOrMA s
  | .movR0A => Sys2Proof.Machine.execMovR0A s
  | .movAR0 => Sys2Proof.Machine.execMovAR0 s
  | .movR1A => Sys2Proof.Machine.execMovR1A s
  | .movAR1 => Sys2Proof.Machine.execMovAR1 s
  | .movR2A => Sys2Proof.Machine.execMovR2A s
  | .movAR2 => Sys2Proof.Machine.execMovAR2 s
  | .movR3A => Sys2Proof.Machine.execMovR3A s
  | .movAR3 => Sys2Proof.Machine.execMovAR3 s
  | .movR4A => Sys2Proof.Machine.execMovR4A s
  | .movAR4 => Sys2Proof.Machine.execMovAR4 s
  | .clc => Sys2Proof.Machine.execClc s
  | .stc => Sys2Proof.Machine.execStc s
  | .ei => Sys2Proof.Machine.execEi s
  | .di => Sys2Proof.Machine.execDi s
  | .ret => Sys2Proof.Machine.execRet s
  | .reti => Sys2Proof.Machine.execReti s
  | .outPAA => Sys2Proof.Machine.execOutPAA s
  | .incA => Sys2Proof.Machine.execIncA s
  | .inAPM => Sys2Proof.Machine.execInAPM s
  | .inAPS => Sys2Proof.Machine.execInAPS s
  | .inAPP => Sys2Proof.Machine.execInAPP s
  | .daa => Sys2Proof.Machine.execDaa s
  | .halt => Sys2Proof.Machine.execHalt s
  | .timerOn => Sys2Proof.Machine.execTimerOn s
  | .timerOff => Sys2Proof.Machine.execTimerOff s
  | .movATmrl => Sys2Proof.Machine.execMovATmrl s
  | .movATmrh => Sys2Proof.Machine.execMovATmrh s
  | .movTmrlA => Sys2Proof.Machine.execMovTmrlA s
  | .movTmrhA => Sys2Proof.Machine.execMovTmrhA s
  | .nop => Sys2Proof.Machine.execNop s
  | .decA => Sys2Proof.Machine.execDecA s
  | .addAX x => Sys2Proof.Machine.execAddAX x s
  | .subAX x => Sys2Proof.Machine.execSubAX x s
  | .andAX x => Sys2Proof.Machine.execAndAX x s
  | .xorAX x => Sys2Proof.Machine.execXorAX x s
  | .orAX x => Sys2Proof.Machine.execOrAX x s
  | .movR4X x => Sys2Proof.Machine.execMovR4X x s
  | .soundN n => Sys2Proof.Machine.execSoundN n s
  | .timerXX xx => Sys2Proof.Machine.execTimerXX xx s
  | .soundOne => Sys2Proof.Machine.execSoundOne s
  | .soundLoop => Sys2Proof.Machine.execSoundLoop s
  | .soundOff => Sys2Proof.Machine.execSoundOff s
  | .soundA => Sys2Proof.Machine.execSoundA s
  | .readR4A => Sys2Proof.Machine.execReadR4A s
  | .readFR4A => Sys2Proof.Machine.execReadFR4A s
  | .readMR0A => Sys2Proof.Machine.execReadMR0A s
  | .readFMR0A => Sys2Proof.Machine.execReadFMR0A s
  | .movR1R0XX first second => Sys2Proof.Machine.execMovR1R0XX first second s
  | .movR3R2XX first second => Sys2Proof.Machine.execMovR3R2XX first second s
  | .movAX x => Sys2Proof.Machine.execMovAX x s
  | .jan n addr => Sys2Proof.Machine.execJan n addr s
  | .jnzR0 addr => Sys2Proof.Machine.execJnzR0 addr s
  | .jnzR1 addr => Sys2Proof.Machine.execJnzR1 addr s
  | .jzA addr => Sys2Proof.Machine.execJzA addr s
  | .jnzA addr => Sys2Proof.Machine.execJnzA addr s
  | .jc addr => Sys2Proof.Machine.execJc addr s
  | .jnc addr => Sys2Proof.Machine.execJnc addr s
  | .jtmr addr => Sys2Proof.Machine.execJtmr addr s
  | .jnzR4 addr => Sys2Proof.Machine.execJnzR4 addr s
  | .jmp addr => Sys2Proof.Machine.execJmp addr s
  | .call addr => Sys2Proof.Machine.execCall addr s

end Sys2Proof.Machine
end

