-- ==== Sys2Proof/Machine/Events.lean ====
section
/-! DEFINITION. What the machine's surroundings do to it, each event one atomic step between two processor steps
(spec 60_exceptions.md R312, R320, R330, R331, R334; 70_reset_and_hazards.md R360, R361). -/

namespace Sys2Proof.Machine

/-- R312 `IntEdge`: the request is latched whatever `IE` and `SUB` are, and a halted processor wakes. -/
def intEdge (s : State) : State := { s with extf := true, halted := false }

/-- R334: whether a rising edge of the timer clock counts. A halted machine has no internal clock (R330, D20). -/
def timerCounts (s : State) : Bool :=
  s.ton && (!s.halted || (decide (s.opts.tmrSrc = .ext) && decide (s.opts.extTmrInHalt = .counts)))

/-- R334 `Tick`: the count goes up by one; the step from FFH to 00H sets the timer flag. -/
def timerTick (s : State) : State :=
  if timerCounts s then
    if s.tmr = 0xFF then { s with tmr := 0x00, tf := true } else { s with tmr := s.tmr + 1 }
  else s

/-- One pin of a port. -/
def getPin (q : PortPins) (i : Fin 4) : PinDrive :=
  match i with
  | 0 => q.p0
  | 1 => q.p1
  | 2 => q.p2
  | 3 => q.p3

/-- The port with one pin under another drive. -/
def setPin (q : PortPins) (i : Fin 4) (d : PinDrive) : PortPins :=
  match i with
  | 0 => { q with p0 := d }
  | 1 => { q with p1 := d }
  | 2 => { q with p2 := d }
  | 3 => { q with p3 := d }

/-- The machine with other pins on one port. -/
def setPortPins (s : State) (p : InPort) (q : PortPins) : State :=
  match p with
  | .pm => { s with pins := { s.pins with pm := q } }
  | .ps => { s with pins := { s.pins with ps := q } }
  | .pp => { s with pins := { s.pins with pp := q } }

/-- Whether pin `i` of port `p` goes from high to low when its drive becomes `d`. Where the pin has no level before or
after (unconnected, no pull-up), that level is a free value (U9; log entry 18). -/
def pinFalls (s : State) (p : InPort) (i : Fin 4) (d : PinDrive) : Bool :=
  let free : BitVec 2 := freeBits s 2
  pinLevel (s.opts.pullUp p) (free.getLsbD 0) (getPin (portPins s p) i)
    && !pinLevel (s.opts.pullUp p) (free.getLsbD 1) d

/-- R331: a pin changes. The change is what `IN` reads from now on; a high-to-low transition of a pin with its `WAKE`
option requests the external interrupt and wakes a halted processor; it requests nothing of a running one. -/
def pinChange (s : State) (p : InPort) (i : Fin 4) (d : PinDrive) : State :=
  let t := drawn (setPortPins s p (setPin (portPins s p) i d))
  if s.halted ∧ (s.opts.wakeMask p).getLsbD i.val = true ∧ pinFalls s p i d = true then
    { t with extf := true, halted := false }
  else t

/-- R361 `Reset`, at any time. What the reset list does not name (R362) is unspecified afterwards: each such register
takes a free value of its own, and no data cell has been written (log entry 8). -/
def performReset (s : State) : State :=
  let n := s.freeCount
  { s with
    pc := 0x000
    ie := false
    ton := false
    tf := false
    cf := false
    sndOn := false
    sndMode := .one
    pa := 0xF
    halted := false
    extf := false
    sub := .main
    acc := Config.freeValue 4 n
    r0 := Config.freeValue 4 (n + 1)
    r1 := Config.freeValue 4 (n + 2)
    r2 := Config.freeValue 4 (n + 3)
    r3 := Config.freeValue 4 (n + 4)
    r4 := Config.freeValue 4 (n + 5)
    stkPc := Config.freeValue 12 (n + 6)
    stkCf := (Config.freeValue 1 (n + 7)).getLsbD 0
    tmr := Config.freeValue 8 (n + 8)
    sndCh := Config.freeValue 4 (n + 9)
    freeCount := n + 10
    dm := []
    ramEpoch := s.ramEpoch + 1 }

/-- R12, R290: the circuit ends a one-cycle sound by itself; a looping sound goes on (R294), and none advances while the
system clock is stopped (R330). -/
def soundEnds (s : State) : State :=
  if s.sndOn = true ∧ s.sndMode = .one ∧ s.halted = false then { s with sndOn := false } else s

/-- What an event does. The processor's turn is no event: Machine/Processor.lean runs it. -/
def fireEvent (e : EnvEvent) (s : State) : State :=
  match e with
  | .processor => s
  | .timerClock => timerTick s
  | .intFalls => intEdge s
  | .pinChange p i d => pinChange s p i d
  | .resetPulse => performReset s
  | .soundEnds => soundEnds s

end Sys2Proof.Machine
end

