-- ==== Sys2Proof/Machine/Processor.lean ====
section
/-! DEFINITION. Fetch and the processor's step (spec 20_memory.md R62; 60_exceptions.md R320). -/

namespace Sys2Proof.Machine

/-- R62: the byte at `PC` and the byte after it, which a one-byte instruction leaves alone. -/
def fetchWindow (s : State) : List Byte := [romRead s s.pc, romRead s (s.pc + 1)]

/-- Fetch, decode and execute the instruction at `PC`; bytes that are no instruction fault (R105, D6). -/
def runInstruction (s : State) : Result :=
  match decode (fetchWindow s) with
  | .ok (i, _) => exec i s
  | .error _ => .fault (.undefinedEncoding s.pc)

/-- R320: the processor's turn. Halted, it takes no step, and its turn changes nothing (R330, U19; log entry 7). -/
def processorStep (s : State) : Result :=
  if s.halted then .next s
  else match acceptedInterrupt s with
    | some src => .next (enterInterrupt src s)
    | none => runInstruction s

/-- One move of the machine: what the schedule says, or the processor when it says nothing (R320; log entry 6). -/
def machineStep (s : State) : Result :=
  match s.schedule with
  | [] => processorStep s
  | .processor :: rest => processorStep { s with schedule := rest }
  | e :: rest => .next (fireEvent e { s with schedule := rest })

/-- Two program bytes placed at `PC` and after it (log entry 28). -/
def placeProgramBytes (s : State) (bytes : List Byte) : State :=
  { s with rom := Memory.store (Memory.store s.rom s.pc.toNat (bytes.getD 0 0)) (s.pc + 1).toNat (bytes.getD 1 0) }

/-- The processor about to execute the instruction at `PC`: nothing scheduled, not halted, and no request that would
be accepted first (log entry 28). -/
def readyToExecute (s : State) : State :=
  let held : Bool := decide (s.ie = true ∧ s.sub = .main)
  { s with schedule := [], halted := false, extf := s.extf && !held, tf := s.tf && !held }

end Sys2Proof.Machine
end

