-- ==== Sys2Proof/Machine/Step.lean ====
section
/-! DEFINITION. The step of the machine, and a program word placed where the next step fetches. -/

namespace Sys2Proof.Machine

/-- One step: next state, fault or refusal. -/
def step (s : State) : Host.Outcome State Fault Refusal := machineStep s

/-- The instruction whose opcode-table word is `w`, of `nbits` bits, stored where `step` fetches its next instruction, and
the processor about to execute it. It stands for the making of the mask ROM (log entries 1, 14, 28). -/
def State.withFetchWord (s : State) (nbits w : Nat) : State :=
  placeProgramBytes (readyToExecute s) (tableBytes nbits w)

end Sys2Proof.Machine
end

