-- ==== Sys2Proof/Machine/Platform.lean ====
section
/-! DEFINITION. What the machine shows its surroundings: the output pins, the display as the LCD driver reads it and the
sound circuit (spec 10_state.md R37, R39; 60_exceptions.md R338 to R340; 70_reset_and_hazards.md R376). Nothing here feeds back into a step. -/

namespace Sys2Proof.Machine

/-- The electrical state of an output pin. -/
inductive PadLevel where
  | drivenLow
  | drivenHigh
  | floating
  deriving DecidableEq, Repr

/-- R37, R206: bit `i` of the latch on pin `PAi` (D16). An open-drain pin floats for 1 (PRESUMED, log entry 22). -/
def paPin (s : State) (i : Fin 4) : PadLevel :=
  match s.pa.getLsbD i.val, s.opts.paType with
  | false, _ => .drivenLow
  | true, .cmos => .drivenHigh
  | true, .nmosOpenDrain => .floating

/-- R338: the addresses of the display data area, rising. -/
def displayAddrs (d : Device) : List DataAddr :=
  ((List.range 256).map (BitVec.ofNat 8)).filter (displayArea d)

/-- R338, R339: the display cells as the LCD driver reads them; none while the processor is halted, when "the LCD
becomes blank". -/
def displayImage (s : State) : Option (List Nibble) :=
  if s.halted then none else some ((displayAddrs s.opts.device).map (cellValue s))

/-- R39, R340: the sound the circuit plays and how. -/
def soundPlaying (s : State) : Option (Nibble × SingMode) :=
  if s.sndOn then some (s.sndCh, s.sndMode) else none

/-- R338: how many segment and common outputs the device drives; one bit of a display cell for each crossing. -/
def lcdSegments : Device → Nat
  | .ht44300 => 32
  | .ht443A0 => 40

/-- R338. -/
def lcdCommons : Device → Nat
  | .ht44300 => 4
  | .ht443A0 => 8

/-- R339: "about 256Hz", "about 512 Hz". -/
def lcdClockHz : Device → Nat
  | .ht44300 => 256
  | .ht443A0 => 512

/-- R339: how many periods of the LCD clock make a common period, one for each common that the duty cycle scans. -/
def lcdCommonPeriodClocks : LcdDrive → Nat
  | .duty4bias3 => 4
  | .duty3bias3 => 3
  | .duty8bias4 => 8
  | .duty8bias5 => 8

/-- R340: the clock of the sound circuit, the system clock divided by two to the power `SND_DIV`, in Hz. -/
def soundClockHz (o : MaskOptions) : Nat := o.fSysKHz * 1000 / 2 ^ o.sndDiv

/-- R340: "Holtek's sound library supports only sound clock frequencies of 128K or 64K". -/
def soundLibraryUsable (o : MaskOptions) : Bool :=
  decide (soundClockHz o = 128000) || decide (soundClockHz o = 64000)

/-- R335, R376: the highest frequency on pad TMCLK at each supply, in kHz. A bound on the surroundings. -/
def maxTmclkKHz : Supply → Nat
  | .v3 => 2000
  | .v5 => 4000

/-- R376: the reset pulse lasts at least 5 ms. A bound on the surroundings; the model's `resetPulse` is one that is long enough. -/
def minResetPulseMicros : Nat := 5000

/-- R312, R376: the interrupt pulse lasts at least 1 microsecond; the model's `intFalls` is one that is long enough. -/
def minInterruptPulseNanos : Nat := 1000

/-- R39: "sounds 0~11 contain 32 notes and sounds 12~15 contain 64 notes". -/
def soundNotes (ch : Nibble) : Nat := if ch.toNat ≤ 11 then 32 else 64

end Sys2Proof.Machine
end

