-- ==== Sys2Proof/Safety.lean ====
section
/-! DEFINITION. The words the statements use: when the memories are in canonical form, what the next step is about to do,
which instructions go through a data pointer, what level a pin has, and what is left of a state when the sound circuit is forgotten. -/

namespace Sys2Proof.Machine

/-- Both memories are in their canonical form. -/
def State.wf (s : State) : Bool := dataWf s.opts.device s.dm && romWf s.rom

/-- The next step is the processor's (R320). -/
def processorsTurn (s : State) : Bool :=
  match s.schedule with
  | [] => true
  | .processor :: _ => true
  | _ => false

/-- The interrupt the next step enters, if any (R317, R320). -/
def entersNext (s : State) : Option IntSource :=
  if processorsTurn s then acceptedInterrupt s else none

/-- The instruction the next step executes, if any (R320). -/
def executesNext (s : State) : Option Instr :=
  if processorsTurn s = true ∧ s.halted = false ∧ acceptedInterrupt s = none then
    match decode (fetchWindow s) with
    | .ok (i, _) => some i
    | .error _ => none
  else none

/-- The event the next step is, if any. -/
def eventNext (s : State) : Option EnvEvent :=
  if processorsTurn s then none else s.schedule.head?

/-- The instructions that access data memory at `P10` (R23, R70, R280). -/
def usesP10 : Instr → Bool
  | .adcAM | .addAM | .sbcAM | .subAM | .andAM | .xorAM | .orAM | .andMA | .xorMA | .orMA => true
  | .incM10 | .decM10 | .movAM10 | .movM10A => true
  | .readR4A | .readFR4A | .readMR0A | .readFMR0A => true
  | _ => false

/-- The instructions that access data memory at `P32` (R23, R70). -/
def usesP32 : Instr → Bool
  | .movAM32 | .movM32A | .incM32 | .decM32 => true
  | _ => false

/-- The level of a pin of port `p` under drive `d`, high as true, where the spec gives it one (R38): a driven pin, or an
unconnected pin with its pull-high resistor. -/
def knownLevel (s : State) (p : InPort) : PinDrive → Option Bool
  | .low => some false
  | .high => some true
  | .floating => if s.opts.pullUp p then some true else none

/-- The events R332 means: a falling edge on INT-bar, or on a wake-up pin of a port, from one known level to the other. -/
def fallingEdge (s : State) : EnvEvent → Bool
  | .intFalls => true
  | .pinChange p i d =>
    (s.opts.wakeMask p).getLsbD i.val && decide (knownLevel s p (getPin (portPins s p) i) = some true)
      && decide (knownLevel s p d = some false)
  | _ => false

/-- Reading any data cell gives what it gave before. -/
def KeepsCells (s t : State) : Prop := ∀ a : DataAddr, cellValue t a = cellValue s a

/-- Reading any data cell but the one at `p` gives what it gave before. -/
def KeepsCellsBut (p : DataAddr) (s t : State) : Prop := ∀ a : DataAddr, a ≠ p → cellValue t a = cellValue s a

/-- A number of steps, up to the first that answers no next state. -/
def runSteps : Nat → State → Result
  | 0, s => .next s
  | n + 1, s =>
    match step s with
    | .next t => runSteps n t
    | .fault f => .fault f
    | .refused r => .refused r

/-- Instructions executed one after another, no interrupt or event between them. -/
def runInstrs : List Instr → State → Result
  | [], s => .next s
  | i :: rest, s =>
    match exec i s with
    | .next t => runInstrs rest t
    | .fault f => .fault f
    | .refused r => .refused r

/-- A state without its sound control state (R290, R296). -/
def forgetSound (s : State) : State := { s with sndCh := 0, sndMode := .one, sndOn := false }

/-- What a step answers, without the sound control state. -/
def forgetSoundIn : Result → Result
  | .next s => .next (forgetSound s)
  | .fault f => .fault f
  | .refused r => .refused r

end Sys2Proof.Machine
end

