-- ==== Sys2Proof/Certificates/Slice0/Obligations.lean ====
section
/-! DEFINITION. The statements for the provers. In every one, `PC` counts in 12 bits (R25; the wrap at FFFH is the spec's
decision D3, log entry 15) and codes are written first byte first (R9; the spec's decision D1, log entry 14). -/

open Sys2Proof Sys2Proof.Machine

/-! ### Encoding -/

/-- R103 to R106: decoding the machine code of any instruction, whatever bytes follow it, gives the instruction back and
leaves those bytes. Every term of `Instr` is well formed, so nothing is assumed. -/
def Obligations.DecodeEncodeRoundTrip : Prop :=
  ∀ (i : Instr) (rest : List Byte), decode (encode i ++ rest) = .ok (i, rest)

/-- R106: no encoding executes as another instruction's: bytes that decode are the machine code of what they decode to. -/
def Obligations.EncodeDecodeRoundTrip : Prop :=
  ∀ (bytes : List Byte) (i : Instr) (rest : List Byte), decode bytes = .ok (i, rest) → bytes = encode i ++ rest

/-- R105 and the spec's decision D6 (log entry 12): exactly these two-byte windows hold no instruction. -/
def Obligations.UndefinedEncodingsExactly : Prop :=
  ∀ b0 b1 : Byte,
    (∃ e, decode [b0, b1] = .error e) ↔
      (b0 = 0x35
        ∨ ((0x40 ≤ b0.toNat ∧ b0.toNat ≤ 0x46) ∨ (0x50 ≤ b0.toNat ∧ b0.toNat ≤ 0x6F)) ∧ 16 ≤ b1.toNat
        ∨ b0 = 0x37 ∧ b1 ≠ 0x3E)

/-- R91: the first byte alone gives the length. -/
def Obligations.LengthFromFirstByte : Prop :=
  ∀ (b0 : Byte) (more rest : List Byte) (i : Instr), decode (b0 :: more) = .ok (i, rest) →
    i.byteLength =
      if (b0.toNat ≤ 0x3F ∧ b0 ≠ 0x37) ∨ (0x48 ≤ b0.toNat ∧ b0.toNat ≤ 0x4F) ∨ (0x70 ≤ b0.toNat ∧ b0.toNat ≤ 0x7F)
      then 1 else 2

/-- 95_test_vectors.md part 4: words written out from the spec's encoding tables decode as the spec says. -/
def Obligations.SpecWordsDecode : Prop :=
  decode [0b00000000, 0x00] = .ok (.rrA, [0x00]) ∧
  decode [0b00001011, 0x00] = .ok (.subAM, [0x00]) ∧
  decode [0b00011001, 0x00] = .ok (.decR4, [0x00]) ∧
  decode [0b00110111, 0b00111110] = .ok (.halt, []) ∧
  decode [0b01000011, 0b00001010] = .ok (.xorAX 0xA, []) ∧
  decode [0b01000111, 0b10100101] = .ok (.timerXX 0xA5, []) ∧
  decode [0b01011010, 0b00000101] = .ok (.movR1R0XX 0xA 0x5, []) ∧
  decode [0b01111010, 0x00] = .ok (.movAX 0xA, [0x00]) ∧
  decode [0b10011010, 0b10111100] = .ok (.jan 3 0x2BC, []) ∧
  decode [0b11011111, 0b11111111] = .ok (.jnzR4 0x7FF, []) ∧
  decode [0b11100001, 0b00100011] = .ok (.jmp 0x123, [])

/-! ### The step -/

/-- R320: when nothing is scheduled before the processor's turn, the processor is not halted and no interrupt is accepted,
the step is the execution of the instruction whose bytes stand at `PC`. With the turn scheduled, the schedule moves on. -/
def Obligations.StepRunsDecodedInstruction : Prop :=
  ∀ (s : State) (i : Instr) (rest : List Byte),
    s.halted = false → ¬(s.ie = true ∧ s.sub = .main ∧ (s.extf = true ∨ s.tf = true)) →
    decode [romRead s s.pc, romRead s (s.pc + 1)] = .ok (i, rest) →
      (s.schedule = [] → step s = exec i s) ∧
      (∀ q, s.schedule = .processor :: q → step s = exec i { s with schedule := q })

/-- The model's own (log entry 28): a word of the opcode table placed at the fetch is what the next step runs, in any state. -/
def Obligations.PlacedWordIsRun : Prop :=
  ∀ (s : State) (nbits w : Nat) (i : Instr), decodeTableWord nbits w = some i →
    step (s.withFetchWord nbits w) = exec i (s.withFetchWord nbits w)

/-- R317, R318, R316: an accepted interrupt is the whole step: `PC` and `CF` saved, the request cleared, `PC` at the
source's address, nothing else changed; the external one first. That `IE` stays is the spec's decision D9 (log entry 17). -/
def Obligations.InterruptEntry : Prop :=
  ∀ s : State, s.schedule = [] → s.halted = false → s.ie = true → s.sub = .main →
    (s.extf = true →
      step s = .next { s with stkPc := s.pc, stkCf := s.cf, sub := .isr, extf := false, pc := 0x008 }) ∧
    (s.extf = false → s.tf = true →
      step s = .next { s with stkPc := s.pc, stkCf := s.cf, sub := .isr, tf := false, pc := 0x004 })

/-- R312, R33: a falling edge of INT-bar latches one request whatever the state, and wakes a halted processor. That
several edges are one request is the spec's decision D23 (log entry 17). -/
def Obligations.IntEdgeLatchesRequest : Prop :=
  ∀ (s : State) (q : List EnvEvent) (n : Nat), s.schedule = List.replicate (n + 1) .intFalls ++ q →
    runSteps (n + 1) s = .next { s with schedule := q, extf := true, halted := false }

/-- R331, R38 (with the spec's decision D12, log entry 18): a change of any input pin, under any drive before and after. The pin
comes under the new drive, every other pin stays, and `IN` reads the new level, where it has one, in its bit (the spec's decision D16, log entry 22). A pin that goes from high to low, driven
or by its pull-high resistor, requests the external interrupt and wakes the processor exactly when the processor is halted
and the pin has its `WAKE` option; of a running processor, of a pin without the option, and of a pin that was low or is high
after, nothing is requested. Where a level is open (no drive and no pull-high resistor) either may happen and no more.
Nothing else changes. -/
def Obligations.PinEdges : Prop :=
  ∀ (s : State) (q : List EnvEvent) (p : InPort) (i : Fin 4) (d : PinDrive), s.schedule = .pinChange p i d :: q →
    ∃ t, step s = .next t ∧ getPin (portPins t p) i = d ∧
      (∀ (p' : InPort) (j : Fin 4), (p', j) ≠ (p, i) → getPin (portPins t p') j = getPin (portPins s p') j) ∧
      (∀ (level : Bool) (free : Nibble), knownLevel s p d = some level → (portRead t p free).getLsbD i.val = level) ∧
      (s.halted = true → (s.opts.wakeMask p).getLsbD i.val = true → knownLevel s p (getPin (portPins s p) i) = some true →
        knownLevel s p d = some false → t.extf = true ∧ t.halted = false) ∧
      (s.halted = false ∨ (s.opts.wakeMask p).getLsbD i.val = false ∨
        knownLevel s p (getPin (portPins s p) i) = some false ∨ knownLevel s p d = some true →
          t.extf = s.extf ∧ t.halted = s.halted) ∧
      (t.extf = true ∧ t.halted = false ∨ t.extf = s.extf ∧ t.halted = s.halted) ∧
      t = { s with schedule := q, pins := t.pins, extf := t.extf, halted := t.halted, freeCount := t.freeCount }

/-- R334: n rising edges of a running timer's clock add n to the count modulo 256 and set `TF` exactly when the count has
passed FFH, so a load of XX overflows after 100H - XX ticks (R260); edges of a stopped timer, or of one whose clock stands still in HALT
(R330; D20, log entry 23), change nothing. -/
def Obligations.TimerTicks : Prop :=
  ∀ (s : State) (q : List EnvEvent) (n : Nat), s.schedule = List.replicate n .timerClock ++ q →
    (s.ton = true → (s.halted = false ∨ s.opts.tmrSrc = .ext ∧ s.opts.extTmrInHalt = .counts) →
      runSteps n s =
        .next { s with schedule := q, tmr := s.tmr + BitVec.ofNat 8 n, tf := s.tf || decide (256 ≤ s.tmr.toNat + n) }) ∧
    ((s.ton = false ∨ s.halted = true ∧ (s.opts.tmrSrc ≠ .ext ∨ s.opts.extTmrInHalt = .frozen)) →
      runSteps n s = .next { s with schedule := q })

/-- R361, R362: reset, at any time, leaves what the reset list says; the mask and the pins are not the machine's to change. The
values of `EXTF` and `SUB` are the spec's decision D8 (log entry 21). -/
def Obligations.ResetPulse : Prop :=
  ∀ (s : State) (q : List EnvEvent), s.schedule = .resetPulse :: q →
    ∃ t, step s = .next t ∧ t.pc = 0x000 ∧ t.ie = false ∧ t.ton = false ∧ t.tf = false ∧ t.cf = false ∧
      t.sndOn = false ∧ t.sndMode = .one ∧ t.pa = 0xF ∧ t.halted = false ∧ t.extf = false ∧ t.sub = .main ∧
      t.rom = s.rom ∧ t.opts = s.opts ∧ t.pins = s.pins ∧ t.schedule = q

/-- R45, R363: the state after reset, for any options and any program bytes `m` in the mask (no other field may depend on
them), and its first step: the instruction at 000H. `State.reset` is that state for the installed options with no byte
placed (log entries 1 and 2). The values of `EXTF` and `SUB` are the spec's decision D8 (log entry 21). -/
def Obligations.ResetStateAndFirstFetch : Prop :=
  (∀ (o : Configuration) (m : List Host.Cell),
    let r := { State.resetWith o with rom := m }
    (r.pc = 0x000 ∧ r.ie = false ∧ r.ton = false ∧ r.tf = false ∧ r.cf = false ∧ r.sndOn = false ∧ r.sndMode = .one ∧
      r.pa = 0xF ∧ r.halted = false ∧ r.extf = false ∧ r.sub = .main) ∧
    (∀ i rest, decode [romRead r 0x000, romRead r 0x001] = .ok (i, rest) → step r = exec i r)) ∧
  State.reset = { State.resetWith Config.installedOptions with rom := [] }

/-! ### Halt -/

/-- R330: while the processor is halted, no step but a reset changes a register, a flag of the program's, the stack
register, the latch or a data cell; `TMR` and `TF` change only for an external clock that counts in HALT, and only `EXTF` can end the
halt (D20, log entry 23). A halted processor's own turn changes nothing (log entry 7). -/
def Obligations.HaltKeepsState : Prop :=
  ∀ s t : State, s.halted = true → step s = .next t → eventNext s ≠ some .resetPulse →
    t = { s with schedule := s.schedule.tail, pins := t.pins, extf := t.extf, halted := t.halted, tmr := t.tmr, tf := t.tf, freeCount := t.freeCount } ∧
    ((t.tmr ≠ s.tmr ∨ t.tf ≠ s.tf) → s.opts.tmrSrc = .ext ∧ s.opts.extTmrInHalt = .counts ∧ s.ton = true) ∧
    (t.halted = false → t.extf = true) ∧
    (processorsTurn s = true → t = { s with schedule := s.schedule.tail })

/-- R332, R297 (with the spec's decision D12, log entry 18): what follows a wake-up. `HALT`, executed with no interrupt accepted before
it, then a falling edge on INT-bar or on any wake-up pin, leaves a state `w` that differs in `PC`, `EXTF`, the schedule
and, for a pin, its drive and the count of free values. With interrupts disabled (case 1), or within a subroutine or an interrupt routine, `w` executes the instruction after
the `HALT`, its request held; with interrupts enabled outside of them (case 2), the external interrupt is entered with the address
after the `HALT` saved. -/
def Obligations.WakeUpCases : Prop :=
  ∀ (s : State) (q : List EnvEvent) (rest : List Byte) (e : EnvEvent),
    s.schedule = .processor :: e :: .processor :: q → fallingEdge s e = true →
    s.halted = false → ¬(s.ie = true ∧ s.sub = .main ∧ (s.extf = true ∨ s.tf = true)) →
    decode (fetchWindow s) = .ok (.halt, rest) →
    ∃ w : State,
      w = { s with pc := s.pc + 2, extf := true, schedule := q, pins := w.pins, freeCount := w.freeCount } ∧
      (e = .intFalls → w.pins = s.pins) ∧
      (∀ p i d, e = .pinChange p i d → getPin (portPins w p) i = d ∧
        ∀ (p' : InPort) (j : Fin 4), (p', j) ≠ (p, i) → getPin (portPins w p') j = getPin (portPins s p') j) ∧
      ((s.ie = false ∨ s.sub ≠ .main) → runSteps 3 s = runInstruction w) ∧
      (s.ie = true → s.sub = .main →
        runSteps 3 s = .next { w with pc := 0x008, stkPc := s.pc + 2, stkCf := s.cf, sub := .isr, extf := false })

/-! ### Sequences of interrupts -/

/-- R316, R326 (d): with both requests pending the external routine is entered first, and when it is a single `RETI` the
timer routine is entered next, from the same place, with the carry as it was. -/
def Obligations.BothRequestsServedInTurn : Prop :=
  ∀ (s : State) (rest : List Byte), s.schedule = [] → s.halted = false → s.ie = true → s.sub = .main →
    s.extf = true → s.tf = true → decode [romRead s 0x008, romRead s 0x009] = .ok (.reti, rest) →
    runSteps 3 s =
      .next { s with pc := 0x004, stkPc := s.pc, stkCf := s.cf, sub := .isr, extf := false, tf := false }

/-- R245, R241, R242, R313, R315, R316: a request of either source, held by `DI` or by a subroutine, is served at the boundary right
after the `EI`, or the return, that ends the hold, the external one first (the spec's decision D10, log entry 17). -/
def Obligations.HeldRequestServedAfterHoldEnds : Prop :=
  ∀ (s : State) (rest : List Byte), s.schedule = [] → s.halted = false →
    (s.ie = false → s.sub = .main → decode (fetchWindow s) = .ok (.ei, rest) →
      (s.extf = true →
        runSteps 2 s =
          .next { s with ie := true, pc := 0x008, stkPc := s.pc + 1, stkCf := s.cf, sub := .isr, extf := false }) ∧
      (s.extf = false → s.tf = true →
        runSteps 2 s =
          .next { s with ie := true, pc := 0x004, stkPc := s.pc + 1, stkCf := s.cf, sub := .isr, tf := false })) ∧
    (s.ie = true → s.sub ≠ .main → decode (fetchWindow s) = .ok (.ret, rest) →
      (s.extf = true → runSteps 2 s = .next { s with pc := 0x008, stkCf := s.cf, sub := .isr, extf := false }) ∧
      (s.extf = false → s.tf = true →
        runSteps 2 s = .next { s with pc := 0x004, stkCf := s.cf, sub := .isr, tf := false })) ∧
    (s.ie = true → s.sub ≠ .main → decode (fetchWindow s) = .ok (.reti, rest) →
      (s.extf = true → runSteps 2 s = .next { s with pc := 0x008, cf := s.stkCf, sub := .isr, extf := false }) ∧
      (s.extf = false → s.tf = true →
        runSteps 2 s = .next { s with pc := 0x004, cf := s.stkCf, sub := .isr, tf := false }))

/-! ### Rules of the whole machine -/

/-- R32: `IE` is set by `EI` and cleared by `DI` and by reset, and by nothing else whatever. -/
def Obligations.OnlyEiDiResetChangeIE : Prop :=
  ∀ s t : State, step s = .next t → t.ie ≠ s.ie →
    (executesNext s = some .ei ∧ t.ie = true) ∨ (executesNext s = some .di ∧ t.ie = false) ∨
      (eventNext s = some .resetPulse ∧ t.ie = false)

/-- R29: `TF` is set only by the running timer's step from FFH to 00H, and cleared only by entry to the timer interrupt, by
`JTMR` and by reset. -/
def Obligations.TimerFlagWriters : Prop :=
  ∀ s t : State, step s = .next t →
    (s.tf = false → t.tf = true → eventNext s = some .timerClock ∧ s.ton = true ∧ s.tmr = 0xFF ∧ t.tmr = 0x00) ∧
    (s.tf = true → t.tf = false →
      entersNext s = some .timer ∨ (∃ addr, executesNext s = some (.jtmr addr)) ∨ eventNext s = some .resetPulse)

/-- R28: the instructions with a mark in the CF column are the only ones that change `CF`. -/
def Obligations.OnlyMarkedInstructionsChangeCarry : Prop :=
  ∀ (i : Instr) (s t : State), exec i s = .next t → t.cf ≠ s.cf →
    i ∈ [Instr.addAM, .adcAM, .subAM, .sbcAM, .daa, .rlA, .rlcA, .rrA, .rrcA, .clc, .stc, .reti]
      ∨ ∃ x, i = .addAX x ∨ i = .subAX x

/-- R40, R61, R78, R6: no step of any kind changes a byte of program memory or an option. -/
def Obligations.ProgramAndOptionsNeverChange : Prop :=
  ∀ s t : State, step s = .next t → t.opts = s.opts ∧ ∀ a : RomAddr, romRead t a = romRead s a

/-- The model's canonical form of both memories (log entry 27) is kept by every step from every state that has it. -/
def Obligations.StepKeepsCanonicalMemory : Prop :=
  ∀ s t : State, s.wf = true → step s = .next t → t.wf = true

/-- The state after reset has the canonical form, for any options. -/
def Obligations.ResetMemoryCanonical : Prop :=
  ∀ o : Configuration, (State.resetWith o).wf = true

/-- R25: every instruction but a jump, call or return leaves `PC` at the address after it. -/
def Obligations.OnlyTransfersLeaveSequence : Prop :=
  ∀ (i : Instr) (s t : State), exec i s = .next t → t.pc.toNat ≠ (s.pc.toNat + i.byteLength) % 4096 →
    (∃ addr, i = .jmp addr ∨ i = .call addr) ∨ i = .ret ∨ i = .reti ∨
      ∃ addr, i = .jc addr ∨ i = .jnc addr ∨ i = .jtmr addr ∨ i = .jzA addr ∨ i = .jnzA addr ∨ i = .jnzR0 addr ∨
        i = .jnzR1 addr ∨ i = .jnzR4 addr ∨ ∃ n, i = .jan n addr

/-- R290, R296: the sound control state influences no other state: two states that differ in nothing else answer every step
alike, but for that state. -/
def Obligations.SoundNeverReachesTheRest : Prop :=
  ∀ s u : State, forgetSound s = forgetSound u → forgetSoundIn (step s) = forgetSoundIn (step u)

/-- R310 (the spec's decision D26) and 93_implementation_defined.md: a step stops only where the spec marks `fault(...)`, each
fault with its cause, and it never refuses. -/
def Obligations.FaultsAreTheSpecsThree : Prop :=
  (∀ s r, step s ≠ .refused r) ∧
  ∀ s f, step s = .fault f →
    (processorsTurn s = true ∧ s.halted = false ∧ acceptedInterrupt s = none) ∧
    ((f = .undefinedEncoding s.pc ∧ ∃ e, decode (fetchWindow s) = .error e) ∨
    (f = .callInInterruptRoutine ∧ s.sub = .isr ∧ ∃ addr, executesNext s = some (.call addr)) ∨
    ∃ i, executesNext s = some i ∧
      ((usesP10 i = true ∧ f = .undefinedDataAddress (p10 s) ∧ populated s.opts.device (p10 s) = false) ∨
       (usesP32 i = true ∧ f = .undefinedDataAddress (p32 s) ∧ populated s.opts.device (p32 s) = false)))

/-- R43, R63, R64 (the spec's decision D7, log entry 10): every instruction that accesses data memory through a pointer
into the gap faults with that address. -/
def Obligations.GapAccessFaults : Prop :=
  ∀ (i : Instr) (s : State),
    (usesP10 i = true → populated s.opts.device (p10 s) = false → exec i s = .fault (.undefinedDataAddress (p10 s))) ∧
    (usesP32 i = true → populated s.opts.device (p32 s) = false → exec i s = .fault (.undefinedDataAddress (p32 s)))

/-- R105, D6 (log entry 12): when the bytes at `PC` are no instruction, the processor's turn faults there. -/
def Obligations.UndefinedEncodingStopsTheStep : Prop :=
  ∀ (s : State) (e : DecodeReject), processorsTurn s = true → s.halted = false → acceptedInterrupt s = none →
    decode [romRead s s.pc, romRead s (s.pc + 1)] = .error e → step s = .fault (.undefinedEncoding s.pc)

/-! ### Data memory -/

/-- R42: the populated addresses and their number on each device, and the display area's (R338). -/
def Obligations.DataMemoryMap : Prop :=
  (∀ a : DataAddr, populated .ht44300 a = true ↔ a.toNat ≤ 0x7F ∨ 0xE0 ≤ a.toNat) ∧
  (∀ a : DataAddr, populated .ht443A0 a = true ↔ a.toNat ≤ 0x9F ∨ 0xB0 ≤ a.toNat) ∧
  (((List.range 256).filter fun n => populated .ht44300 (BitVec.ofNat 8 n)).length = 160) ∧
  (((List.range 256).filter fun n => populated .ht443A0 (BitVec.ofNat 8 n)).length = 240) ∧
  (displayAddrs .ht44300).length = 32 ∧ (displayAddrs .ht443A0).length = 80

/-- R64, R48: a cell reads as last written, every other cell as before, whatever list holds them. -/
def Obligations.CellReadsLastWrite : Prop :=
  ∀ (s : State) (a b : DataAddr) (v : Nibble), cellValue (setCell s a v) b = if b = a then v else cellValue s b

/-- R44, R338, R65: after any instruction that stores to a display cell, through either pointer, the driver reads the stored value
there, and every other display cell as before. The page of `READ MR0A` is that of `next` by the spec's decision D5 (log entry 15). -/
def Obligations.DisplayShowsStores : Prop :=
  ∀ s : State, s.halted = false →
    ∀ e ∈ [(Instr.movM10A, p10 s, s.acc), (.movM32A, p32 s, s.acc), (.andMA, p10 s, cellValue s (p10 s) &&& s.acc),
        (.orMA, p10 s, cellValue s (p10 s) ||| s.acc), (.xorMA, p10 s, cellValue s (p10 s) ^^^ s.acc),
        (.incM10, p10 s, cellValue s (p10 s) + 1), (.decM10, p10 s, cellValue s (p10 s) - 1),
        (.incM32, p32 s, cellValue s (p32 s) + 1), (.decM32, p32 s, cellValue s (p32 s) - 1),
        (.readMR0A, p10 s, hiNibble (romRead s (tableAddr (currentPage s) s.acc s.r4))),
        (.readFMR0A, p10 s, hiNibble (romRead s (tableAddr 0xF s.acc s.r4)))],
      displayArea s.opts.device e.2.1 = true →
        ∃ t, exec e.1 s = .next t ∧
          displayImage t = some ((displayAddrs s.opts.device).map fun a => if a = e.2.1 then e.2.2 else cellValue s a)

/-! ### Arithmetic -/

/-- R121, R122, R125: the three additions; `CF` after them is the carry out of bit 3 by the spec's decision D13 (log
entry 16). -/
def Obligations.AdditionResults : Prop :=
  ∀ (s : State) (x : Nibble),
    (populated s.opts.device (p10 s) = true →
      (∃ t, exec .addAM s = .next t ∧
        t.acc.toNat = (s.acc.toNat + (cellValue s (p10 s)).toNat) % 16 ∧
        t.cf = decide (16 ≤ s.acc.toNat + (cellValue s (p10 s)).toNat) ∧
        t = { s with pc := s.pc + 1, acc := t.acc, cf := t.cf } ∧ KeepsCells s t) ∧
      (∃ t, exec .adcAM s = .next t ∧
        t.acc.toNat = (s.acc.toNat + (cellValue s (p10 s)).toNat + s.cf.toNat) % 16 ∧
        t.cf = decide (16 ≤ s.acc.toNat + (cellValue s (p10 s)).toNat + s.cf.toNat) ∧
        t = { s with pc := s.pc + 1, acc := t.acc, cf := t.cf } ∧ KeepsCells s t)) ∧
    (∃ t, exec (.addAX x) s = .next t ∧
      t.acc.toNat = (s.acc.toNat + x.toNat) % 16 ∧ t.cf = decide (16 ≤ s.acc.toNat + x.toNat) ∧
      t = { s with pc := s.pc + 2, acc := t.acc, cf := t.cf } ∧ KeepsCells s t)

/-- R123, R124, R126: the three subtractions, their codes and cycles: the accumulator plus the complement plus one, or plus
`CF`; `CF` is 1 exactly when no borrow takes place. `GapAccessFaults` says what a pointer into the gap does. -/
def Obligations.SubtractionResults : Prop :=
  ∀ (s : State) (x : Nibble),
    (encode .subAM = [0x0B] ∧ encode .sbcAM = [0x0A] ∧ encode (.subAX x) = [0x41, (0 : Nibble) ++ x]) ∧
    (Instr.cycles .subAM = 1 ∧ Instr.cycles .sbcAM = 1 ∧ (Instr.subAX x).cycles = 2) ∧
    (populated s.opts.device (p10 s) = true →
      (∃ t, exec .subAM s = .next t ∧
        t.acc.toNat = (s.acc.toNat + (15 - (cellValue s (p10 s)).toNat) + 1) % 16 ∧
        t.cf = decide ((cellValue s (p10 s)).toNat ≤ s.acc.toNat) ∧
        t = { s with pc := s.pc + 1, acc := t.acc, cf := t.cf } ∧ KeepsCells s t) ∧
      (∃ t, exec .sbcAM s = .next t ∧
        t.acc.toNat = (s.acc.toNat + (15 - (cellValue s (p10 s)).toNat) + s.cf.toNat) % 16 ∧
        t.cf = decide ((cellValue s (p10 s)).toNat + (1 - s.cf.toNat) ≤ s.acc.toNat) ∧
        t = { s with pc := s.pc + 1, acc := t.acc, cf := t.cf } ∧ KeepsCells s t)) ∧
    (∃ t, exec (.subAX x) s = .next t ∧
      t.acc.toNat = (s.acc.toNat + (15 - x.toNat) + 1) % 16 ∧ t.cf = decide (x.toNat ≤ s.acc.toNat) ∧
      t = { s with pc := s.pc + 2, acc := t.acc, cf := t.cf } ∧ KeepsCells s t)

/-- R127: `DAA`. -/
def Obligations.DecimalAdjustResults : Prop :=
  ∀ s : State,
    encode .daa = [0x36] ∧ Instr.cycles .daa = 1 ∧
    (∃ t, exec .daa s = .next t ∧
      (if 9 < s.acc.toNat ∨ s.cf = true then t.acc.toNat = (s.acc.toNat + 6) % 16 ∧ t.cf = true
        else t.acc = s.acc ∧ t.cf = s.cf) ∧
      t = { s with pc := s.pc + 1, acc := t.acc, cf := t.cf } ∧ KeepsCells s t)

/-- R127's inference and the BCD property of 95_test_vectors.md part 2.1: `ADC` of two decimal digits, then `DAA`, leaves the
decimal digit of the sum and the decimal carry. `CF` after `ADC` is the spec's decision D13 (log entry 16). -/
def Obligations.DecimalAdditionProperty : Prop :=
  ∀ s : State, populated s.opts.device (p10 s) = true → s.acc.toNat ≤ 9 → (cellValue s (p10 s)).toNat ≤ 9 →
    ∃ t, runInstrs [.adcAM, .daa] s = .next t ∧
      t.acc.toNat = (s.acc.toNat + (cellValue s (p10 s)).toNat + s.cf.toNat) % 10 ∧
      t.cf = decide (10 ≤ s.acc.toNat + (cellValue s (p10 s)).toNat + s.cf.toNat) ∧
      t = { s with pc := s.pc + 2, acc := t.acc, cf := t.cf } ∧ KeepsCells s t

/-! ### Logic -/

/-- R141, R142, R143, R147, R148, R149: the logic instructions with the accumulator as destination, bit by bit; no flag
and no cell changes. `GapAccessFaults` says what a pointer into the gap does. -/
def Obligations.LogicToAccumulator : Prop :=
  ∀ (s : State) (x : Nibble),
    (encode .andAM = [0x1A] ∧ encode .orAM = [0x1C] ∧ encode .xorAM = [0x1B] ∧
      encode (.andAX x) = [0x42, (0 : Nibble) ++ x] ∧ encode (.orAX x) = [0x44, (0 : Nibble) ++ x] ∧
      encode (.xorAX x) = [0x43, (0 : Nibble) ++ x]) ∧
    (∀ e ∈ [(Instr.andAM, and), (.orAM, or), (.xorAM, xor)],
      e.1.cycles = 1 ∧
      (populated s.opts.device (p10 s) = true →
        ∃ t, exec e.1 s = .next t ∧
          (∀ k < 4, t.acc.getLsbD k = e.2 (s.acc.getLsbD k) ((cellValue s (p10 s)).getLsbD k)) ∧
          t = { s with pc := s.pc + 1, acc := t.acc } ∧ KeepsCells s t)) ∧
    (∀ e ∈ [(Instr.andAX x, and), (.orAX x, or), (.xorAX x, xor)],
      e.1.cycles = 2 ∧
      ∃ t, exec e.1 s = .next t ∧ (∀ k < 4, t.acc.getLsbD k = e.2 (s.acc.getLsbD k) (x.getLsbD k)) ∧
        t = { s with pc := s.pc + 2, acc := t.acc } ∧ KeepsCells s t)

/-- R144, R145, R146: the logic instructions with the data cell as destination: only that cell changes, the accumulator
and the flags do not. -/
def Obligations.LogicToMemory : Prop :=
  ∀ s : State,
    (encode .andMA = [0x1D] ∧ encode .orMA = [0x1F] ∧ encode .xorMA = [0x1E]) ∧
    (∀ e ∈ [(Instr.andMA, and), (.orMA, or), (.xorMA, xor)],
      e.1.cycles = 1 ∧
      (populated s.opts.device (p10 s) = true →
        ∃ t, exec e.1 s = .next t ∧
          (∀ k < 4, (cellValue t (p10 s)).getLsbD k = e.2 ((cellValue s (p10 s)).getLsbD k) (s.acc.getLsbD k)) ∧
          t = { s with pc := s.pc + 1, dm := t.dm } ∧ KeepsCellsBut (p10 s) s t))

/-! ### Increment and decrement -/

/-- R161, R162, R165, R166: one up or down modulo 16 in the accumulator or one working register; no flag, no other register
and no cell changes. -/
def Obligations.IncDecRegisters : Prop :=
  ∀ s : State,
    (encode .incA = [0x31] ∧ encode .decA = [0x3F] ∧ Instr.cycles .incA = 1 ∧ Instr.cycles .decA = 1) ∧
    (∃ t, exec .incA s = .next t ∧ t.acc.toNat = (s.acc.toNat + 1) % 16 ∧
      t = { s with pc := s.pc + 1, acc := t.acc } ∧ KeepsCells s t) ∧
    (∃ t, exec .decA s = .next t ∧ t.acc.toNat = (s.acc.toNat + 15) % 16 ∧
      t = { s with pc := s.pc + 1, acc := t.acc } ∧ KeepsCells s t) ∧
    (∀ e ∈ [(Instr.incR0, (0x10 : Byte), Reg.r0, 1), (.incR1, 0x12, .r1, 1), (.incR2, 0x14, .r2, 1), (.incR3, 0x16, .r3, 1),
        (.incR4, 0x18, .r4, 1), (.decR0, 0x11, .r0, 15), (.decR1, 0x13, .r1, 15), (.decR2, 0x15, .r2, 15),
        (.decR3, 0x17, .r3, 15), (.decR4, 0x19, .r4, 15)],
      encode e.1 = [e.2.1] ∧ e.1.cycles = 1 ∧
      ∃ t, exec e.1 s = .next t ∧ (getReg t e.2.2.1).toNat = ((getReg s e.2.2.1).toNat + e.2.2.2) % 16 ∧
        (∀ r, r ≠ e.2.2.1 → getReg t r = getReg s r) ∧
        t = { s with pc := s.pc + 1, r0 := t.r0, r1 := t.r1, r2 := t.r2, r3 := t.r3, r4 := t.r4 } ∧ KeepsCells s t)

/-- R163, R164, R167, R168: one up or down modulo 16 in the cell at `P10` or `P32`; only that cell changes. -/
def Obligations.IncDecMemory : Prop :=
  ∀ s : State,
    ∀ e ∈ [(Instr.incM10, (0x0C : Byte), p10 s, 1), (.decM10, 0x0D, p10 s, 15), (.incM32, 0x0E, p32 s, 1),
        (.decM32, 0x0F, p32 s, 15)],
      encode e.1 = [e.2.1] ∧ e.1.cycles = 1 ∧
      (populated s.opts.device e.2.2.1 = true →
        ∃ t, exec e.1 s = .next t ∧
          (cellValue t e.2.2.1).toNat = ((cellValue s e.2.2.1).toNat + e.2.2.2) % 16 ∧
          t = { s with pc := s.pc + 1, dm := t.dm } ∧ KeepsCellsBut e.2.2.1 s t)

/-! ### Data moves -/

/-- R181, R182: moves between the accumulator and a working register; the source and everything else stay. -/
def Obligations.RegisterMoves : Prop :=
  ∀ s : State,
    (∀ e ∈ [(Instr.movAR0, (0x21 : Byte), s.r0), (.movAR1, 0x23, s.r1), (.movAR2, 0x25, s.r2), (.movAR3, 0x27, s.r3),
        (.movAR4, 0x29, s.r4)],
      encode e.1 = [e.2.1] ∧ e.1.cycles = 1 ∧ exec e.1 s = .next { s with pc := s.pc + 1, acc := e.2.2 }) ∧
    (encode .movR0A = [0x20] ∧ encode .movR1A = [0x22] ∧ encode .movR2A = [0x24] ∧ encode .movR3A = [0x26] ∧
      encode .movR4A = [0x28]) ∧
    (∀ i ∈ [Instr.movR0A, .movR1A, .movR2A, .movR3A, .movR4A], i.cycles = 1) ∧
    exec .movR0A s = .next { s with pc := s.pc + 1, r0 := s.acc } ∧
    exec .movR1A s = .next { s with pc := s.pc + 1, r1 := s.acc } ∧
    exec .movR2A s = .next { s with pc := s.pc + 1, r2 := s.acc } ∧
    exec .movR3A s = .next { s with pc := s.pc + 1, r3 := s.acc } ∧
    exec .movR4A s = .next { s with pc := s.pc + 1, r4 := s.acc }

/-- R183 to R186: loads and stores of one cell through either pointer; a load changes no cell, a store only its own. -/
def Obligations.MemoryMoves : Prop :=
  ∀ s : State,
    (∀ e ∈ [(Instr.movAM10, (0x04 : Byte), p10 s), (.movAM32, 0x06, p32 s)],
      encode e.1 = [e.2.1] ∧ e.1.cycles = 1 ∧
      (populated s.opts.device e.2.2 = true →
        ∃ t, exec e.1 s = .next t ∧ t = { s with pc := s.pc + 1, acc := cellValue s e.2.2 } ∧ KeepsCells s t)) ∧
    (∀ e ∈ [(Instr.movM10A, (0x05 : Byte), p10 s), (.movM32A, 0x07, p32 s)],
      encode e.1 = [e.2.1] ∧ e.1.cycles = 1 ∧
      (populated s.opts.device e.2.2 = true →
        ∃ t, exec e.1 s = .next t ∧ cellValue t e.2.2 = s.acc ∧ t = { s with pc := s.pc + 1, dm := t.dm } ∧
          KeepsCellsBut e.2.2 s t))

/-- R187, R190: the immediate loads of the accumulator and of R4. -/
def Obligations.ImmediateLoads : Prop :=
  ∀ (s : State) (x : Nibble),
    encode (.movAX x) = [(0x7 : Nibble) ++ x] ∧ (Instr.movAX x).cycles = 1 ∧
    exec (.movAX x) s = .next { s with pc := s.pc + 1, acc := x } ∧
    encode (.movR4X x) = [0x46, (0 : Nibble) ++ x] ∧ (Instr.movR4X x).cycles = 2 ∧
    exec (.movR4X x) s = .next { s with pc := s.pc + 2, r4 := x }

/-- R188, R189: the pair loads, under either value of the open parameter `IMM8_FIRST_NIBBLE` (D2, log entry 13). -/
def Obligations.PairLoads : Prop :=
  ∀ (s : State) (f l : Nibble),
    (s.opts.immFirst = .high →
      exec (.movR1R0XX f l) s = .next { s with pc := s.pc + 2, r1 := f, r0 := l } ∧
      exec (.movR3R2XX f l) s = .next { s with pc := s.pc + 2, r3 := f, r2 := l }) ∧
    (s.opts.immFirst = .low →
      exec (.movR1R0XX f l) s = .next { s with pc := s.pc + 2, r1 := l, r0 := f } ∧
      exec (.movR3R2XX f l) s = .next { s with pc := s.pc + 2, r3 := l, r2 := f })

/-! ### Rotates, input and output -/

/-- R201 to R204: the four rotates, bit by bit, from the values before the instruction. -/
def Obligations.RotateResults : Prop :=
  ∀ s : State,
    (encode .rlA = [0x01] ∧ encode .rlcA = [0x03] ∧ encode .rrA = [0x00] ∧ encode .rrcA = [0x02]) ∧
    (∀ e ∈ [(Instr.rlA, s.acc.getLsbD 3), (.rlcA, s.cf)],
      e.1.cycles = 1 ∧
      ∃ t, exec e.1 s = .next t ∧ t.acc.getLsbD 3 = s.acc.getLsbD 2 ∧ t.acc.getLsbD 2 = s.acc.getLsbD 1 ∧
        t.acc.getLsbD 1 = s.acc.getLsbD 0 ∧ t.acc.getLsbD 0 = e.2 ∧ t.cf = s.acc.getLsbD 3 ∧
        t = { s with pc := s.pc + 1, acc := t.acc, cf := t.cf } ∧ KeepsCells s t) ∧
    (∀ e ∈ [(Instr.rrA, s.acc.getLsbD 0), (.rrcA, s.cf)],
      e.1.cycles = 1 ∧
      ∃ t, exec e.1 s = .next t ∧ t.acc.getLsbD 0 = s.acc.getLsbD 1 ∧ t.acc.getLsbD 1 = s.acc.getLsbD 2 ∧
        t.acc.getLsbD 2 = s.acc.getLsbD 3 ∧ t.acc.getLsbD 3 = e.2 ∧ t.cf = s.acc.getLsbD 0 ∧
        t = { s with pc := s.pc + 1, acc := t.acc, cf := t.cf } ∧ KeepsCells s t)

/-- R200, "Laws that follow": four plain rotates restore the accumulator, five through the carry restore both, and a rotate
and its opposite undo each other. -/
def Obligations.RotateLaws : Prop :=
  ∀ s : State,
    (∀ i ∈ [Instr.rlA, .rrA], ∃ t, runInstrs [i, i, i, i] s = .next t ∧ t.acc = s.acc) ∧
    (∀ i ∈ [Instr.rlcA, .rrcA], ∃ t, runInstrs [i, i, i, i, i] s = .next t ∧ t.acc = s.acc ∧ t.cf = s.cf) ∧
    (∃ t, runInstrs [.rlA, .rrA] s = .next t ∧ t.acc = s.acc) ∧
    (∃ t, runInstrs [.rlcA, .rrcA] s = .next t ∧ t.acc = s.acc ∧ t.cf = s.cf)

/-- R205, R206, R66, R67: `IN` reads every pin that has a level, pin i in bit i and high as 1, and draws at most a free
value for the others; `OUT` writes the latch. The bit order is the spec's decision D16 (log entry 22). -/
def Obligations.PortTransfers : Prop :=
  ∀ s : State,
    (∀ e ∈ [(Instr.inAPM, InPort.pm), (.inAPS, .ps), (.inAPP, .pp)],
      ∃ t, exec e.1 s = .next t ∧
        (∀ k : Fin 4,
          (getPin (portPins s e.2) k = .high → t.acc.getLsbD k.val = true) ∧
          (getPin (portPins s e.2) k = .low → t.acc.getLsbD k.val = false) ∧
          (getPin (portPins s e.2) k = .floating → s.opts.pullUp e.2 = true → t.acc.getLsbD k.val = true)) ∧
        t = { s with pc := s.pc + 1, acc := t.acc, freeCount := t.freeCount } ∧ KeepsCells s t) ∧
    exec .outPAA s = .next { s with pc := s.pc + 1, pa := s.acc }

/-! ### Branches -/

/-- R222: `JMP` loads all twelve bits and changes nothing else. -/
def Obligations.JumpResult : Prop :=
  ∀ (s : State) (addr : RomAddr),
    encode (.jmp addr) = [(0b1110 : BitVec 4) ++ addr.extractLsb' 8 4, addr.extractLsb' 0 8] ∧
    (Instr.jmp addr).cycles = 2 ∧ exec (.jmp addr) s = .next { s with pc := addr }

/-- R221, R223, R224, R226 to R229: each conditional jump goes to its address within the 2048-byte half of `next` when its condition
holds and to `next` otherwise, and changes nothing but `PC`. That the half is that of `next` is the spec's decision D4 (log
entry 15). -/
def Obligations.ConditionalJumps : Prop :=
  ∀ (s : State) (addr : BitVec 11) (n : BitVec 2),
    ∀ e ∈ [(Instr.jc addr, s.cf), (.jnc addr, !s.cf), (.jan n addr, s.acc.getLsbD n.toNat), (.jzA addr, decide (s.acc = 0)),
        (.jnzA addr, decide (s.acc ≠ 0)), (.jnzR0 addr, decide (s.r0 ≠ 0)), (.jnzR1 addr, decide (s.r1 ≠ 0)),
        (.jnzR4 addr, decide (s.r4 ≠ 0))],
      ∃ t, exec e.1 s = .next t ∧
        t.pc.toNat = (if e.2 = true then (s.pc.toNat + 2) % 4096 / 2048 * 2048 + addr.toNat else (s.pc.toNat + 2) % 4096) ∧
        t = { s with pc := t.pc } ∧ KeepsCells s t

/-- R225: `JTMR` tests `TF` as R223 tests `CF`, and clears it, taken or not (the spec's decision D19, log entry 19). That a
taken jump stays in the 2048-byte half of `next` is the spec's decision D4 (log entry 15). -/
def Obligations.TimerFlagJump : Prop :=
  ∀ (s : State) (addr : BitVec 11),
    ∃ t, exec (.jtmr addr) s = .next t ∧
      t.pc.toNat = (if s.tf = true then (s.pc.toNat + 2) % 4096 / 2048 * 2048 + addr.toNat else (s.pc.toNat + 2) % 4096) ∧
      t.tf = false ∧ t = { s with pc := t.pc, tf := t.tf } ∧ KeepsCells s t

/-! ### Subroutine and flag instructions -/

/-- R240, R323: `CALL` saves the address after it, not the carry, also when it overwrites an earlier one; within an interrupt
routine it faults. Both clauses follow the spec's decision D11 (log entries 11 and 20). -/
def Obligations.CallResult : Prop :=
  ∀ (s : State) (addr : RomAddr),
    (s.sub ≠ .isr → exec (.call addr) s = .next { s with stkPc := s.pc + 2, sub := .called, pc := addr }) ∧
    (s.sub = .isr → exec (.call addr) s = .fault .callInInterruptRoutine)

/-- R241, R242: a return copies `STK.pc` and ends the hold, whatever `SUB` was (the spec's decisions D9, D17, D24, log
entry 20); `RETI` also restores `CF`, `RET` does not. -/
def Obligations.ReturnResults : Prop :=
  ∀ s : State,
    exec .ret s = .next { s with pc := s.stkPc, sub := .main } ∧
    exec .reti s = .next { s with pc := s.stkPc, cf := s.stkCf, sub := .main }

/-- R243, R244, R247: `CLC`, `STC` and `NOP`. -/
def Obligations.CarryInstructionsAndNop : Prop :=
  ∀ s : State,
    (encode .clc = [0x2A] ∧ encode .stc = [0x2B] ∧ encode .nop = [0x3E]) ∧
    (Instr.cycles .clc = 1 ∧ Instr.cycles .stc = 1 ∧ Instr.cycles .nop = 1) ∧
    exec .clc s = .next { s with pc := s.pc + 1, cf := false } ∧
    exec .stc s = .next { s with pc := s.pc + 1, cf := true } ∧
    exec .nop s = .next { s with pc := s.pc + 1 }

/-- R245, R246: `EI` and `DI` write `IE` and leave pending requests. -/
def Obligations.InterruptEnableResults : Prop :=
  ∀ s : State,
    exec .ei s = .next { s with pc := s.pc + 1, ie := true } ∧
    exec .di s = .next { s with pc := s.pc + 1, ie := false }

/-! ### Timer instructions -/

/-- R260, R261, R262: load, start and stop; `TF` and the rest stay. -/
def Obligations.TimerLoadStartStop : Prop :=
  ∀ (s : State) (xx : Byte),
    (encode (.timerXX xx) = [0x47, xx] ∧ encode .timerOn = [0x38] ∧ encode .timerOff = [0x39]) ∧
    ((Instr.timerXX xx).cycles = 2 ∧ Instr.cycles .timerOn = 1 ∧ Instr.cycles .timerOff = 1) ∧
    exec (.timerXX xx) s = .next { s with pc := s.pc + 2, tmr := xx } ∧
    exec .timerOn s = .next { s with pc := s.pc + 1, ton := true } ∧
    exec .timerOff s = .next { s with pc := s.pc + 1, ton := false }

/-- R263, R264, R336: reading a nibble of the timer is exact when the timer is stopped or has an internal source;
otherwise any value may come to the accumulator and the rest is the same (U8, log entry 23). -/
def Obligations.TimerReads : Prop :=
  ∀ s : State,
    ((s.ton = false ∨ s.opts.tmrSrc ≠ .ext) →
      ∃ l h, exec .movATmrl s = .next l ∧ exec .movATmrh s = .next h ∧
        l.acc.toNat = s.tmr.toNat % 16 ∧ h.acc.toNat = s.tmr.toNat / 16 ∧
        l = { s with pc := s.pc + 1, acc := l.acc } ∧ h = { s with pc := s.pc + 1, acc := h.acc }) ∧
    (s.ton = true → s.opts.tmrSrc = .ext →
      ∃ l h, exec .movATmrl s = .next l ∧ exec .movATmrh s = .next h ∧
        l = { s with pc := s.pc + 1, acc := l.acc, freeCount := l.freeCount } ∧
        h = { s with pc := s.pc + 1, acc := h.acc, freeCount := h.freeCount })

/-- R265, R266, R267: each nibble write keeps the other nibble; with the timer stopped the two nibbles written are the byte
`TIMER` would load, and what was written is read back (D25, log entry 23). -/
def Obligations.TimerNibbleWrites : Prop :=
  ∀ s : State,
    (∃ t, exec .movTmrlA s = .next t ∧ t.tmr.toNat = s.tmr.toNat / 16 * 16 + s.acc.toNat ∧
      t = { s with pc := s.pc + 1, tmr := t.tmr }) ∧
    (∃ t, exec .movTmrhA s = .next t ∧ t.tmr.toNat = s.acc.toNat * 16 + s.tmr.toNat % 16 ∧
      t = { s with pc := s.pc + 1, tmr := t.tmr }) ∧
    (s.ton = false → ∀ h l : Nibble,
      (∃ t u, runInstrs [.movAX h, .movTmrhA, .movAX l, .movTmrlA] s = .next t ∧
        runInstrs [.timerXX (h ++ l)] s = .next u ∧ t.tmr = u.tmr) ∧
      (∃ t, runInstrs [.timerXX (h ++ l), .movATmrl] s = .next t ∧ t.acc = l) ∧
      (∃ t, runInstrs [.timerXX (h ++ l), .movATmrh] s = .next t ∧ t.acc = h) ∧
      (∀ e ∈ [(Instr.movTmrlA, Instr.movATmrl), (.movTmrhA, .movATmrh)],
        ∃ t, runInstrs [e.1, e.2] s = .next t ∧ t.acc = s.acc))

/-! ### Table reads -/

/-- R283, R284: a read of page F takes the byte at `F00H + 16 * ACC + low`, wherever the instruction stands; `ACC` before the
instruction is the address, all reads come before all writes. That a pointer into the gap faults is the spec's decision D7 (log entry 10). -/
def Obligations.PageFReads : Prop :=
  ∀ s : State,
    (encode .readFR4A = [0x4D] ∧ encode .readFMR0A = [0x4F] ∧ Instr.cycles .readFR4A = 2 ∧ Instr.cycles .readFMR0A = 2) ∧
    (populated s.opts.device (p10 s) = false →
      exec .readFR4A s = .fault (.undefinedDataAddress (p10 s)) ∧ exec .readFMR0A s = .fault (.undefinedDataAddress (p10 s))) ∧
    (populated s.opts.device (p10 s) = true →
      (∃ t, exec .readFR4A s = .next t ∧
        t.r4.toNat * 16 + t.acc.toNat =
          (romRead s (BitVec.ofNat 12 (0xF00 + s.acc.toNat * 16 + (cellValue s (p10 s)).toNat))).toNat ∧
        t = { s with pc := s.pc + 1, r4 := t.r4, acc := t.acc } ∧ KeepsCells s t) ∧
      (∃ t, exec .readFMR0A s = .next t ∧
        (cellValue t (p10 s)).toNat * 16 + t.acc.toNat =
          (romRead s (BitVec.ofNat 12 (0xF00 + s.acc.toNat * 16 + s.r4.toNat))).toNat ∧
        t = { s with pc := s.pc + 1, dm := t.dm, acc := t.acc } ∧ KeepsCellsBut (p10 s) s t))

/-- R281, R282, R280: a read of the current page takes the page from bits 11 to 8 of `next`, so an instruction at nFFH reads
page n+1 (the spec's decision D5, log entry 15; R366). -/
def Obligations.CurrentPageReads : Prop :=
  ∀ s : State, populated s.opts.device (p10 s) = true →
    (∃ t, exec .readR4A s = .next t ∧
      t.r4.toNat * 16 + t.acc.toNat =
        (romRead s (BitVec.ofNat 12
          ((s.pc.toNat + 1) % 4096 / 256 * 256 + s.acc.toNat * 16 + (cellValue s (p10 s)).toNat))).toNat ∧
      t = { s with pc := s.pc + 1, r4 := t.r4, acc := t.acc } ∧ KeepsCells s t) ∧
    (∃ t, exec .readMR0A s = .next t ∧
      (cellValue t (p10 s)).toNat * 16 + t.acc.toNat =
        (romRead s (BitVec.ofNat 12 ((s.pc.toNat + 1) % 4096 / 256 * 256 + s.acc.toNat * 16 + s.r4.toNat))).toNat ∧
      t = { s with pc := s.pc + 1, dm := t.dm, acc := t.acc } ∧ KeepsCellsBut (p10 s) s t)

/-! ### Sound and halt -/

/-- R291 to R295: the five sound instructions write the sound control state only; and a sound in one-cycle mode ends by
itself while the system clock runs, a looping one never (R290, R294, R330; the spec's decision D18, log entry 26). -/
def Obligations.SoundResults : Prop :=
  ∀ (s : State) (n : Nibble),
    exec (.soundN n) s = .next { s with pc := s.pc + 2, sndCh := n, sndOn := true } ∧
    exec .soundA s = .next { s with pc := s.pc + 1, sndCh := s.acc, sndOn := true } ∧
    exec .soundOne s = .next { s with pc := s.pc + 1, sndMode := .one } ∧
    exec .soundLoop s = .next { s with pc := s.pc + 1, sndMode := .loop } ∧
    exec .soundOff s = .next { s with pc := s.pc + 1, sndOn := false } ∧
    (∀ q, s.schedule = .soundEnds :: q →
      step s = .next { s with schedule := q, sndOn := s.sndOn && (decide (s.sndMode = .loop) || s.halted) })

/-- R297: `HALT` leaves `PC` after itself and stops the clock, also with a request pending (the spec's decision D12, log
entry 18). -/
def Obligations.HaltResult : Prop :=
  ∀ s : State, exec .halt s = .next { s with pc := s.pc + 2, halted := true }
end

