-- ==== Sys2Proof/Laws/Configuration.lean ====
section
/-! SUPPORT. What it means that State holds a configuration and not mere options: the limits of R6, for every state. -/

namespace Sys2Proof

/-- Options make a configuration exactly when R6 allows them, and it is those options (U4). -/
theorem Configuration.make_eq_some_iff {o : MaskOptions} {c : Configuration} :
    Configuration.make o = some c ↔ c.toMaskOptions = o := by
  unfold Configuration.make
  split
  · rw [Option.some.injEq]
    exact ⟨fun e => e ▸ rfl, fun e => by cases c; simp_all⟩
  · rename_i h
    exact ⟨fun e => (by cases e), fun e => absurd (e ▸ c.legal) h⟩

theorem Configuration.make_eq_none_iff {o : MaskOptions} : Configuration.make o = none ↔ o.wf = false := by
  unfold Configuration.make
  split <;> simp_all

/-- The four checks of a configuration, each by itself. -/
theorem Configuration.checks (c : Configuration) :
    c.tmrSrc.wf = true ∧ c.lcdDrive.wf c.device c.supply = true ∧ c.sndDiv ≤ 5 ∧
      32 ≤ c.fSysKHz ∧ c.fSysKHz ≤ c.supply.maxSystemKHz := by
  simpa [MaskOptions.wf, and_assoc] using c.legal

/-- U4: no machine has the reserved timer divider, or one above 13. -/
theorem Configuration.divider_allowed (c : Configuration) {n : Nat} (h : c.tmrSrc = .int n) : n ≤ 13 ∧ n ≠ 6 := by
  have := c.checks.1
  rw [h] at this
  simpa [TimerSource.wf] using this

/-- The reset state exists exactly for the options R6 allows. -/
theorem Machine.State.resetFor_isSome (o : MaskOptions) : (Machine.State.resetFor o).isSome = o.wf := by
  unfold Machine.State.resetFor Configuration.make
  split <;> simp_all

end Sys2Proof
end

