-- ==== Sys2Proof/Laws/Memory.lean ====
section
/-! SUPPORT. The laws of memory: what a stored list gives back, and that storing keeps the canonical forms. -/

namespace Sys2Proof.Machine

/-- Read after write, whatever the list. -/
@[simp] theorem Memory.lookup_store (m : List Host.Cell) (a b : Nat) (v : Byte) :
    Memory.lookup (Memory.store m a v) b = if b = a then some v else Memory.lookup m b := by
  induction m with
  | nil => rfl
  | cons c rest ih =>
    obtain ⟨k, w⟩ := c
    simp only [Memory.store]
    split_ifs with h1 h2 <;> simp only [Memory.lookup] <;> split_ifs <;> simp_all

/-- Storing above a bound keeps the list above it. -/
theorem Memory.risesFrom_store {m : List Host.Cell} {n a : Nat} {v : Byte} (hn : n < a) (h : Memory.risesFrom n m = true) :
    Memory.risesFrom n (Memory.store m a v) = true := by
  induction m generalizing n with
  | nil => simpa [Memory.store, Memory.risesFrom] using hn
  | cons c rest ih =>
    obtain ⟨k, w⟩ := c
    simp only [Memory.risesFrom, Bool.and_eq_true, decide_eq_true_eq] at h
    simp only [Memory.store]
    split_ifs with h1 h2 <;> simp only [Memory.risesFrom, Bool.and_eq_true, decide_eq_true_eq]
    · exact ⟨hn, h1, h.2⟩
    · exact ⟨hn, h2 ▸ h.2⟩
    · exact ⟨h.1, ih (by omega) h.2⟩

/-- Storing keeps the addresses strictly rising. -/
theorem Memory.wf_store {m : List Host.Cell} {a : Nat} {v : Byte} (h : Memory.wf m = true) :
    Memory.wf (Memory.store m a v) = true := by
  cases m with
  | nil => rfl
  | cons c rest =>
    obtain ⟨k, w⟩ := c
    simp only [Memory.wf] at h
    simp only [Memory.store]
    split_ifs with h1 h2 <;> simp only [Memory.wf, Memory.risesFrom, Bool.and_eq_true, decide_eq_true_eq]
    · exact ⟨h1, h⟩
    · exact h2 ▸ h
    · exact Memory.risesFrom_store (by omega) h

/-- What holds of every entry, and of the one stored, holds of every entry afterwards. -/
theorem Memory.all_store {m : List Host.Cell} {a : Nat} {v : Byte} {p : Host.Cell → Bool}
    (h : m.all p = true) (hv : p (a, v) = true) : (Memory.store m a v).all p = true := by
  induction m with
  | nil => simpa [Memory.store] using hv
  | cons c rest ih =>
    obtain ⟨k, w⟩ := c
    simp only [List.all_cons, Bool.and_eq_true] at h
    simp only [Memory.store]
    split_ifs <;> simp_all [List.all_cons]

/-- A nibble stored in a populated cell keeps data memory's canonical form. -/
theorem dataWf_store {d : Device} {m : List Host.Cell} {a : DataAddr} {v : Nibble} (h : dataWf d m = true)
    (ha : populated d a = true) : dataWf d (Memory.store m a.toNat ((0 : Nibble) ++ v)) = true := by
  simp only [dataWf, Bool.and_eq_true] at h ⊢
  refine ⟨Memory.wf_store h.1, Memory.all_store h.2 ?_⟩
  have hv : ((0 : Nibble) ++ v).toNat < 16 := by
    rw [BitVec.toNat_append]; simpa using v.isLt
  rw [Bool.and_eq_true, Bool.and_eq_true]
  exact ⟨⟨decide_eq_true a.isLt, by simpa using ha⟩, decide_eq_true hv⟩

/-- A byte stored at a 12-bit address keeps program memory's canonical form. -/
theorem romWf_store {m : List Host.Cell} {a : RomAddr} {v : Byte} (h : romWf m = true) :
    romWf (Memory.store m a.toNat v) = true := by
  simp only [romWf, Bool.and_eq_true] at h ⊢
  exact ⟨Memory.wf_store h.1, Memory.all_store h.2 (by simp [a.isLt])⟩

/-- `MOV`, `INC` and the like: writing a populated cell keeps the form. -/
theorem setCell_dataWf {s : State} {a : DataAddr} {v : Nibble} (h : dataWf s.opts.device s.dm = true)
    (ha : populated s.opts.device a = true) : dataWf (setCell s a v).opts.device (setCell s a v).dm = true :=
  dataWf_store h ha

/-- Reset lists nothing, which is canonical for any device. -/
theorem performReset_dataWf (s : State) : dataWf (performReset s).opts.device (performReset s).dm = true := rfl

/-- Placing program bytes keeps the form. -/
theorem placeProgramBytes_romWf {s : State} {bytes : List Byte} (h : romWf s.rom = true) :
    romWf (placeProgramBytes s bytes).rom = true := romWf_store (romWf_store h)

/-- Data memory and program memory after reset have their forms, for any options. -/
theorem resetWith_memories_wf (o : Configuration) :
    dataWf o.device (State.resetWith o).dm = true ∧ romWf (State.resetWith o).rom = true := ⟨rfl, rfl⟩

/-- The gap is what R42 leaves out: the address map in the table's own ranges. -/
theorem populated_iff (d : Device) (a : DataAddr) :
    populated d a = true ↔
      match d with
      | .ht44300 => a.toNat ≤ 0x7F ∨ 0xE0 ≤ a.toNat
      | .ht443A0 => a.toNat ≤ 0x9F ∨ 0xB0 ≤ a.toNat := by
  cases d
  · simp [populated]
  · simp [populated, or_assoc]
    omega

/-- The display area is populated. -/
theorem populated_of_displayArea {d : Device} {a : DataAddr} (h : displayArea d a = true) : populated d a = true := by
  rw [populated_iff]
  cases d <;> simp [displayArea] at h <;> simp only <;> omega

end Sys2Proof.Machine
end

