-- ==== Sys2Proof/Laws/State.lean ====
section
/-! SUPPORT. One lemma per field for each named update of the state, so that no proof unfolds a record update. -/

namespace Sys2Proof.Machine

variable (s : State)

/-! ### `advance` -/

@[simp] theorem advance_acc (n : Nat) : (advance s n).acc = s.acc := rfl
@[simp] theorem advance_r0 (n : Nat) : (advance s n).r0 = s.r0 := rfl
@[simp] theorem advance_r1 (n : Nat) : (advance s n).r1 = s.r1 := rfl
@[simp] theorem advance_r2 (n : Nat) : (advance s n).r2 = s.r2 := rfl
@[simp] theorem advance_r3 (n : Nat) : (advance s n).r3 = s.r3 := rfl
@[simp] theorem advance_r4 (n : Nat) : (advance s n).r4 = s.r4 := rfl
@[simp] theorem advance_pc (n : Nat) : (advance s n).pc = s.pc + BitVec.ofNat 12 n := rfl
@[simp] theorem advance_stkPc (n : Nat) : (advance s n).stkPc = s.stkPc := rfl
@[simp] theorem advance_stkCf (n : Nat) : (advance s n).stkCf = s.stkCf := rfl
@[simp] theorem advance_cf (n : Nat) : (advance s n).cf = s.cf := rfl
@[simp] theorem advance_tf (n : Nat) : (advance s n).tf = s.tf := rfl
@[simp] theorem advance_tmr (n : Nat) : (advance s n).tmr = s.tmr := rfl
@[simp] theorem advance_ton (n : Nat) : (advance s n).ton = s.ton := rfl
@[simp] theorem advance_ie (n : Nat) : (advance s n).ie = s.ie := rfl
@[simp] theorem advance_extf (n : Nat) : (advance s n).extf = s.extf := rfl
@[simp] theorem advance_sub (n : Nat) : (advance s n).sub = s.sub := rfl
@[simp] theorem advance_halted (n : Nat) : (advance s n).halted = s.halted := rfl
@[simp] theorem advance_pa (n : Nat) : (advance s n).pa = s.pa := rfl
@[simp] theorem advance_sndCh (n : Nat) : (advance s n).sndCh = s.sndCh := rfl
@[simp] theorem advance_sndMode (n : Nat) : (advance s n).sndMode = s.sndMode := rfl
@[simp] theorem advance_sndOn (n : Nat) : (advance s n).sndOn = s.sndOn := rfl
@[simp] theorem advance_dm (n : Nat) : (advance s n).dm = s.dm := rfl
@[simp] theorem advance_rom (n : Nat) : (advance s n).rom = s.rom := rfl
@[simp] theorem advance_opts (n : Nat) : (advance s n).opts = s.opts := rfl
@[simp] theorem advance_pins (n : Nat) : (advance s n).pins = s.pins := rfl
@[simp] theorem advance_schedule (n : Nat) : (advance s n).schedule = s.schedule := rfl
@[simp] theorem advance_freeCount (n : Nat) : (advance s n).freeCount = s.freeCount := rfl
@[simp] theorem advance_ramEpoch (n : Nat) : (advance s n).ramEpoch = s.ramEpoch := rfl

/-! ### `drawn` -/

@[simp] theorem drawn_acc : (drawn s).acc = s.acc := rfl
@[simp] theorem drawn_r0 : (drawn s).r0 = s.r0 := rfl
@[simp] theorem drawn_r1 : (drawn s).r1 = s.r1 := rfl
@[simp] theorem drawn_r2 : (drawn s).r2 = s.r2 := rfl
@[simp] theorem drawn_r3 : (drawn s).r3 = s.r3 := rfl
@[simp] theorem drawn_r4 : (drawn s).r4 = s.r4 := rfl
@[simp] theorem drawn_pc : (drawn s).pc = s.pc := rfl
@[simp] theorem drawn_stkPc : (drawn s).stkPc = s.stkPc := rfl
@[simp] theorem drawn_stkCf : (drawn s).stkCf = s.stkCf := rfl
@[simp] theorem drawn_cf : (drawn s).cf = s.cf := rfl
@[simp] theorem drawn_tf : (drawn s).tf = s.tf := rfl
@[simp] theorem drawn_tmr : (drawn s).tmr = s.tmr := rfl
@[simp] theorem drawn_ton : (drawn s).ton = s.ton := rfl
@[simp] theorem drawn_ie : (drawn s).ie = s.ie := rfl
@[simp] theorem drawn_extf : (drawn s).extf = s.extf := rfl
@[simp] theorem drawn_sub : (drawn s).sub = s.sub := rfl
@[simp] theorem drawn_halted : (drawn s).halted = s.halted := rfl
@[simp] theorem drawn_pa : (drawn s).pa = s.pa := rfl
@[simp] theorem drawn_sndCh : (drawn s).sndCh = s.sndCh := rfl
@[simp] theorem drawn_sndMode : (drawn s).sndMode = s.sndMode := rfl
@[simp] theorem drawn_sndOn : (drawn s).sndOn = s.sndOn := rfl
@[simp] theorem drawn_dm : (drawn s).dm = s.dm := rfl
@[simp] theorem drawn_rom : (drawn s).rom = s.rom := rfl
@[simp] theorem drawn_opts : (drawn s).opts = s.opts := rfl
@[simp] theorem drawn_pins : (drawn s).pins = s.pins := rfl
@[simp] theorem drawn_schedule : (drawn s).schedule = s.schedule := rfl
@[simp] theorem drawn_freeCount : (drawn s).freeCount = s.freeCount + 1 := rfl
@[simp] theorem drawn_ramEpoch : (drawn s).ramEpoch = s.ramEpoch := rfl

/-! ### `setCell` -/

@[simp] theorem setCell_acc (a : DataAddr) (v : Nibble) : (setCell s a v).acc = s.acc := rfl
@[simp] theorem setCell_r0 (a : DataAddr) (v : Nibble) : (setCell s a v).r0 = s.r0 := rfl
@[simp] theorem setCell_r1 (a : DataAddr) (v : Nibble) : (setCell s a v).r1 = s.r1 := rfl
@[simp] theorem setCell_r2 (a : DataAddr) (v : Nibble) : (setCell s a v).r2 = s.r2 := rfl
@[simp] theorem setCell_r3 (a : DataAddr) (v : Nibble) : (setCell s a v).r3 = s.r3 := rfl
@[simp] theorem setCell_r4 (a : DataAddr) (v : Nibble) : (setCell s a v).r4 = s.r4 := rfl
@[simp] theorem setCell_pc (a : DataAddr) (v : Nibble) : (setCell s a v).pc = s.pc := rfl
@[simp] theorem setCell_stkPc (a : DataAddr) (v : Nibble) : (setCell s a v).stkPc = s.stkPc := rfl
@[simp] theorem setCell_stkCf (a : DataAddr) (v : Nibble) : (setCell s a v).stkCf = s.stkCf := rfl
@[simp] theorem setCell_cf (a : DataAddr) (v : Nibble) : (setCell s a v).cf = s.cf := rfl
@[simp] theorem setCell_tf (a : DataAddr) (v : Nibble) : (setCell s a v).tf = s.tf := rfl
@[simp] theorem setCell_tmr (a : DataAddr) (v : Nibble) : (setCell s a v).tmr = s.tmr := rfl
@[simp] theorem setCell_ton (a : DataAddr) (v : Nibble) : (setCell s a v).ton = s.ton := rfl
@[simp] theorem setCell_ie (a : DataAddr) (v : Nibble) : (setCell s a v).ie = s.ie := rfl
@[simp] theorem setCell_extf (a : DataAddr) (v : Nibble) : (setCell s a v).extf = s.extf := rfl
@[simp] theorem setCell_sub (a : DataAddr) (v : Nibble) : (setCell s a v).sub = s.sub := rfl
@[simp] theorem setCell_halted (a : DataAddr) (v : Nibble) : (setCell s a v).halted = s.halted := rfl
@[simp] theorem setCell_pa (a : DataAddr) (v : Nibble) : (setCell s a v).pa = s.pa := rfl
@[simp] theorem setCell_sndCh (a : DataAddr) (v : Nibble) : (setCell s a v).sndCh = s.sndCh := rfl
@[simp] theorem setCell_sndMode (a : DataAddr) (v : Nibble) : (setCell s a v).sndMode = s.sndMode := rfl
@[simp] theorem setCell_sndOn (a : DataAddr) (v : Nibble) : (setCell s a v).sndOn = s.sndOn := rfl
@[simp] theorem setCell_dm (a : DataAddr) (v : Nibble) : (setCell s a v).dm = Memory.store s.dm a.toNat ((0 : Nibble) ++ v) := rfl
@[simp] theorem setCell_rom (a : DataAddr) (v : Nibble) : (setCell s a v).rom = s.rom := rfl
@[simp] theorem setCell_opts (a : DataAddr) (v : Nibble) : (setCell s a v).opts = s.opts := rfl
@[simp] theorem setCell_pins (a : DataAddr) (v : Nibble) : (setCell s a v).pins = s.pins := rfl
@[simp] theorem setCell_schedule (a : DataAddr) (v : Nibble) : (setCell s a v).schedule = s.schedule := rfl
@[simp] theorem setCell_freeCount (a : DataAddr) (v : Nibble) : (setCell s a v).freeCount = s.freeCount := rfl
@[simp] theorem setCell_ramEpoch (a : DataAddr) (v : Nibble) : (setCell s a v).ramEpoch = s.ramEpoch := rfl

/-! ### `setAcc` -/

@[simp] theorem setAcc_acc (n : Nat) (v : Nibble) : (setAcc s n v).acc = v := rfl
@[simp] theorem setAcc_r0 (n : Nat) (v : Nibble) : (setAcc s n v).r0 = s.r0 := rfl
@[simp] theorem setAcc_r1 (n : Nat) (v : Nibble) : (setAcc s n v).r1 = s.r1 := rfl
@[simp] theorem setAcc_r2 (n : Nat) (v : Nibble) : (setAcc s n v).r2 = s.r2 := rfl
@[simp] theorem setAcc_r3 (n : Nat) (v : Nibble) : (setAcc s n v).r3 = s.r3 := rfl
@[simp] theorem setAcc_r4 (n : Nat) (v : Nibble) : (setAcc s n v).r4 = s.r4 := rfl
@[simp] theorem setAcc_pc (n : Nat) (v : Nibble) : (setAcc s n v).pc = s.pc + BitVec.ofNat 12 n := rfl
@[simp] theorem setAcc_stkPc (n : Nat) (v : Nibble) : (setAcc s n v).stkPc = s.stkPc := rfl
@[simp] theorem setAcc_stkCf (n : Nat) (v : Nibble) : (setAcc s n v).stkCf = s.stkCf := rfl
@[simp] theorem setAcc_cf (n : Nat) (v : Nibble) : (setAcc s n v).cf = s.cf := rfl
@[simp] theorem setAcc_tf (n : Nat) (v : Nibble) : (setAcc s n v).tf = s.tf := rfl
@[simp] theorem setAcc_tmr (n : Nat) (v : Nibble) : (setAcc s n v).tmr = s.tmr := rfl
@[simp] theorem setAcc_ton (n : Nat) (v : Nibble) : (setAcc s n v).ton = s.ton := rfl
@[simp] theorem setAcc_ie (n : Nat) (v : Nibble) : (setAcc s n v).ie = s.ie := rfl
@[simp] theorem setAcc_extf (n : Nat) (v : Nibble) : (setAcc s n v).extf = s.extf := rfl
@[simp] theorem setAcc_sub (n : Nat) (v : Nibble) : (setAcc s n v).sub = s.sub := rfl
@[simp] theorem setAcc_halted (n : Nat) (v : Nibble) : (setAcc s n v).halted = s.halted := rfl
@[simp] theorem setAcc_pa (n : Nat) (v : Nibble) : (setAcc s n v).pa = s.pa := rfl
@[simp] theorem setAcc_sndCh (n : Nat) (v : Nibble) : (setAcc s n v).sndCh = s.sndCh := rfl
@[simp] theorem setAcc_sndMode (n : Nat) (v : Nibble) : (setAcc s n v).sndMode = s.sndMode := rfl
@[simp] theorem setAcc_sndOn (n : Nat) (v : Nibble) : (setAcc s n v).sndOn = s.sndOn := rfl
@[simp] theorem setAcc_dm (n : Nat) (v : Nibble) : (setAcc s n v).dm = s.dm := rfl
@[simp] theorem setAcc_rom (n : Nat) (v : Nibble) : (setAcc s n v).rom = s.rom := rfl
@[simp] theorem setAcc_opts (n : Nat) (v : Nibble) : (setAcc s n v).opts = s.opts := rfl
@[simp] theorem setAcc_pins (n : Nat) (v : Nibble) : (setAcc s n v).pins = s.pins := rfl
@[simp] theorem setAcc_schedule (n : Nat) (v : Nibble) : (setAcc s n v).schedule = s.schedule := rfl
@[simp] theorem setAcc_freeCount (n : Nat) (v : Nibble) : (setAcc s n v).freeCount = s.freeCount := rfl
@[simp] theorem setAcc_ramEpoch (n : Nat) (v : Nibble) : (setAcc s n v).ramEpoch = s.ramEpoch := rfl

/-! ### `setAccCarry` -/

@[simp] theorem setAccCarry_acc (n : Nat) (r : AluResult) : (setAccCarry s n r).acc = r.value := rfl
@[simp] theorem setAccCarry_r0 (n : Nat) (r : AluResult) : (setAccCarry s n r).r0 = s.r0 := rfl
@[simp] theorem setAccCarry_r1 (n : Nat) (r : AluResult) : (setAccCarry s n r).r1 = s.r1 := rfl
@[simp] theorem setAccCarry_r2 (n : Nat) (r : AluResult) : (setAccCarry s n r).r2 = s.r2 := rfl
@[simp] theorem setAccCarry_r3 (n : Nat) (r : AluResult) : (setAccCarry s n r).r3 = s.r3 := rfl
@[simp] theorem setAccCarry_r4 (n : Nat) (r : AluResult) : (setAccCarry s n r).r4 = s.r4 := rfl
@[simp] theorem setAccCarry_pc (n : Nat) (r : AluResult) : (setAccCarry s n r).pc = s.pc + BitVec.ofNat 12 n := rfl
@[simp] theorem setAccCarry_stkPc (n : Nat) (r : AluResult) : (setAccCarry s n r).stkPc = s.stkPc := rfl
@[simp] theorem setAccCarry_stkCf (n : Nat) (r : AluResult) : (setAccCarry s n r).stkCf = s.stkCf := rfl
@[simp] theorem setAccCarry_cf (n : Nat) (r : AluResult) : (setAccCarry s n r).cf = r.carry := rfl
@[simp] theorem setAccCarry_tf (n : Nat) (r : AluResult) : (setAccCarry s n r).tf = s.tf := rfl
@[simp] theorem setAccCarry_tmr (n : Nat) (r : AluResult) : (setAccCarry s n r).tmr = s.tmr := rfl
@[simp] theorem setAccCarry_ton (n : Nat) (r : AluResult) : (setAccCarry s n r).ton = s.ton := rfl
@[simp] theorem setAccCarry_ie (n : Nat) (r : AluResult) : (setAccCarry s n r).ie = s.ie := rfl
@[simp] theorem setAccCarry_extf (n : Nat) (r : AluResult) : (setAccCarry s n r).extf = s.extf := rfl
@[simp] theorem setAccCarry_sub (n : Nat) (r : AluResult) : (setAccCarry s n r).sub = s.sub := rfl
@[simp] theorem setAccCarry_halted (n : Nat) (r : AluResult) : (setAccCarry s n r).halted = s.halted := rfl
@[simp] theorem setAccCarry_pa (n : Nat) (r : AluResult) : (setAccCarry s n r).pa = s.pa := rfl
@[simp] theorem setAccCarry_sndCh (n : Nat) (r : AluResult) : (setAccCarry s n r).sndCh = s.sndCh := rfl
@[simp] theorem setAccCarry_sndMode (n : Nat) (r : AluResult) : (setAccCarry s n r).sndMode = s.sndMode := rfl
@[simp] theorem setAccCarry_sndOn (n : Nat) (r : AluResult) : (setAccCarry s n r).sndOn = s.sndOn := rfl
@[simp] theorem setAccCarry_dm (n : Nat) (r : AluResult) : (setAccCarry s n r).dm = s.dm := rfl
@[simp] theorem setAccCarry_rom (n : Nat) (r : AluResult) : (setAccCarry s n r).rom = s.rom := rfl
@[simp] theorem setAccCarry_opts (n : Nat) (r : AluResult) : (setAccCarry s n r).opts = s.opts := rfl
@[simp] theorem setAccCarry_pins (n : Nat) (r : AluResult) : (setAccCarry s n r).pins = s.pins := rfl
@[simp] theorem setAccCarry_schedule (n : Nat) (r : AluResult) : (setAccCarry s n r).schedule = s.schedule := rfl
@[simp] theorem setAccCarry_freeCount (n : Nat) (r : AluResult) : (setAccCarry s n r).freeCount = s.freeCount := rfl
@[simp] theorem setAccCarry_ramEpoch (n : Nat) (r : AluResult) : (setAccCarry s n r).ramEpoch = s.ramEpoch := rfl

/-! ### `startSound` -/

@[simp] theorem startSound_acc (ch : Nibble) : (startSound s ch).acc = s.acc := rfl
@[simp] theorem startSound_r0 (ch : Nibble) : (startSound s ch).r0 = s.r0 := rfl
@[simp] theorem startSound_r1 (ch : Nibble) : (startSound s ch).r1 = s.r1 := rfl
@[simp] theorem startSound_r2 (ch : Nibble) : (startSound s ch).r2 = s.r2 := rfl
@[simp] theorem startSound_r3 (ch : Nibble) : (startSound s ch).r3 = s.r3 := rfl
@[simp] theorem startSound_r4 (ch : Nibble) : (startSound s ch).r4 = s.r4 := rfl
@[simp] theorem startSound_pc (ch : Nibble) : (startSound s ch).pc = s.pc := rfl
@[simp] theorem startSound_stkPc (ch : Nibble) : (startSound s ch).stkPc = s.stkPc := rfl
@[simp] theorem startSound_stkCf (ch : Nibble) : (startSound s ch).stkCf = s.stkCf := rfl
@[simp] theorem startSound_cf (ch : Nibble) : (startSound s ch).cf = s.cf := rfl
@[simp] theorem startSound_tf (ch : Nibble) : (startSound s ch).tf = s.tf := rfl
@[simp] theorem startSound_tmr (ch : Nibble) : (startSound s ch).tmr = s.tmr := rfl
@[simp] theorem startSound_ton (ch : Nibble) : (startSound s ch).ton = s.ton := rfl
@[simp] theorem startSound_ie (ch : Nibble) : (startSound s ch).ie = s.ie := rfl
@[simp] theorem startSound_extf (ch : Nibble) : (startSound s ch).extf = s.extf := rfl
@[simp] theorem startSound_sub (ch : Nibble) : (startSound s ch).sub = s.sub := rfl
@[simp] theorem startSound_halted (ch : Nibble) : (startSound s ch).halted = s.halted := rfl
@[simp] theorem startSound_pa (ch : Nibble) : (startSound s ch).pa = s.pa := rfl
@[simp] theorem startSound_sndCh (ch : Nibble) : (startSound s ch).sndCh = ch := rfl
@[simp] theorem startSound_sndMode (ch : Nibble) : (startSound s ch).sndMode = s.sndMode := rfl
@[simp] theorem startSound_sndOn (ch : Nibble) : (startSound s ch).sndOn = true := rfl
@[simp] theorem startSound_dm (ch : Nibble) : (startSound s ch).dm = s.dm := rfl
@[simp] theorem startSound_rom (ch : Nibble) : (startSound s ch).rom = s.rom := rfl
@[simp] theorem startSound_opts (ch : Nibble) : (startSound s ch).opts = s.opts := rfl
@[simp] theorem startSound_pins (ch : Nibble) : (startSound s ch).pins = s.pins := rfl
@[simp] theorem startSound_schedule (ch : Nibble) : (startSound s ch).schedule = s.schedule := rfl
@[simp] theorem startSound_freeCount (ch : Nibble) : (startSound s ch).freeCount = s.freeCount := rfl
@[simp] theorem startSound_ramEpoch (ch : Nibble) : (startSound s ch).ramEpoch = s.ramEpoch := rfl

/-! ### `intEdge` -/

@[simp] theorem intEdge_acc : (intEdge s).acc = s.acc := rfl
@[simp] theorem intEdge_r0 : (intEdge s).r0 = s.r0 := rfl
@[simp] theorem intEdge_r1 : (intEdge s).r1 = s.r1 := rfl
@[simp] theorem intEdge_r2 : (intEdge s).r2 = s.r2 := rfl
@[simp] theorem intEdge_r3 : (intEdge s).r3 = s.r3 := rfl
@[simp] theorem intEdge_r4 : (intEdge s).r4 = s.r4 := rfl
@[simp] theorem intEdge_pc : (intEdge s).pc = s.pc := rfl
@[simp] theorem intEdge_stkPc : (intEdge s).stkPc = s.stkPc := rfl
@[simp] theorem intEdge_stkCf : (intEdge s).stkCf = s.stkCf := rfl
@[simp] theorem intEdge_cf : (intEdge s).cf = s.cf := rfl
@[simp] theorem intEdge_tf : (intEdge s).tf = s.tf := rfl
@[simp] theorem intEdge_tmr : (intEdge s).tmr = s.tmr := rfl
@[simp] theorem intEdge_ton : (intEdge s).ton = s.ton := rfl
@[simp] theorem intEdge_ie : (intEdge s).ie = s.ie := rfl
@[simp] theorem intEdge_extf : (intEdge s).extf = true := rfl
@[simp] theorem intEdge_sub : (intEdge s).sub = s.sub := rfl
@[simp] theorem intEdge_halted : (intEdge s).halted = false := rfl
@[simp] theorem intEdge_pa : (intEdge s).pa = s.pa := rfl
@[simp] theorem intEdge_sndCh : (intEdge s).sndCh = s.sndCh := rfl
@[simp] theorem intEdge_sndMode : (intEdge s).sndMode = s.sndMode := rfl
@[simp] theorem intEdge_sndOn : (intEdge s).sndOn = s.sndOn := rfl
@[simp] theorem intEdge_dm : (intEdge s).dm = s.dm := rfl
@[simp] theorem intEdge_rom : (intEdge s).rom = s.rom := rfl
@[simp] theorem intEdge_opts : (intEdge s).opts = s.opts := rfl
@[simp] theorem intEdge_pins : (intEdge s).pins = s.pins := rfl
@[simp] theorem intEdge_schedule : (intEdge s).schedule = s.schedule := rfl
@[simp] theorem intEdge_freeCount : (intEdge s).freeCount = s.freeCount := rfl
@[simp] theorem intEdge_ramEpoch : (intEdge s).ramEpoch = s.ramEpoch := rfl

/-! ### `returnFromStack` -/

@[simp] theorem returnFromStack_acc (b : Bool) : (returnFromStack b s).acc = s.acc := rfl
@[simp] theorem returnFromStack_r0 (b : Bool) : (returnFromStack b s).r0 = s.r0 := rfl
@[simp] theorem returnFromStack_r1 (b : Bool) : (returnFromStack b s).r1 = s.r1 := rfl
@[simp] theorem returnFromStack_r2 (b : Bool) : (returnFromStack b s).r2 = s.r2 := rfl
@[simp] theorem returnFromStack_r3 (b : Bool) : (returnFromStack b s).r3 = s.r3 := rfl
@[simp] theorem returnFromStack_r4 (b : Bool) : (returnFromStack b s).r4 = s.r4 := rfl
@[simp] theorem returnFromStack_pc (b : Bool) : (returnFromStack b s).pc = s.stkPc := rfl
@[simp] theorem returnFromStack_stkPc (b : Bool) : (returnFromStack b s).stkPc = s.stkPc := rfl
@[simp] theorem returnFromStack_stkCf (b : Bool) : (returnFromStack b s).stkCf = s.stkCf := rfl
@[simp] theorem returnFromStack_cf (b : Bool) : (returnFromStack b s).cf = if b then s.stkCf else s.cf := rfl
@[simp] theorem returnFromStack_tf (b : Bool) : (returnFromStack b s).tf = s.tf := rfl
@[simp] theorem returnFromStack_tmr (b : Bool) : (returnFromStack b s).tmr = s.tmr := rfl
@[simp] theorem returnFromStack_ton (b : Bool) : (returnFromStack b s).ton = s.ton := rfl
@[simp] theorem returnFromStack_ie (b : Bool) : (returnFromStack b s).ie = s.ie := rfl
@[simp] theorem returnFromStack_extf (b : Bool) : (returnFromStack b s).extf = s.extf := rfl
@[simp] theorem returnFromStack_sub (b : Bool) : (returnFromStack b s).sub = .main := rfl
@[simp] theorem returnFromStack_halted (b : Bool) : (returnFromStack b s).halted = s.halted := rfl
@[simp] theorem returnFromStack_pa (b : Bool) : (returnFromStack b s).pa = s.pa := rfl
@[simp] theorem returnFromStack_sndCh (b : Bool) : (returnFromStack b s).sndCh = s.sndCh := rfl
@[simp] theorem returnFromStack_sndMode (b : Bool) : (returnFromStack b s).sndMode = s.sndMode := rfl
@[simp] theorem returnFromStack_sndOn (b : Bool) : (returnFromStack b s).sndOn = s.sndOn := rfl
@[simp] theorem returnFromStack_dm (b : Bool) : (returnFromStack b s).dm = s.dm := rfl
@[simp] theorem returnFromStack_rom (b : Bool) : (returnFromStack b s).rom = s.rom := rfl
@[simp] theorem returnFromStack_opts (b : Bool) : (returnFromStack b s).opts = s.opts := rfl
@[simp] theorem returnFromStack_pins (b : Bool) : (returnFromStack b s).pins = s.pins := rfl
@[simp] theorem returnFromStack_schedule (b : Bool) : (returnFromStack b s).schedule = s.schedule := rfl
@[simp] theorem returnFromStack_freeCount (b : Bool) : (returnFromStack b s).freeCount = s.freeCount := rfl
@[simp] theorem returnFromStack_ramEpoch (b : Bool) : (returnFromStack b s).ramEpoch = s.ramEpoch := rfl

/-! ### `setReg` -/

@[simp] theorem setReg_acc (r : Reg) (v : Nibble) : (setReg s r v).acc = s.acc := by cases r <;> rfl
@[simp] theorem setReg_r0 (r : Reg) (v : Nibble) : (setReg s r v).r0 = if r = .r0 then v else s.r0 := by cases r <;> rfl
@[simp] theorem setReg_r1 (r : Reg) (v : Nibble) : (setReg s r v).r1 = if r = .r1 then v else s.r1 := by cases r <;> rfl
@[simp] theorem setReg_r2 (r : Reg) (v : Nibble) : (setReg s r v).r2 = if r = .r2 then v else s.r2 := by cases r <;> rfl
@[simp] theorem setReg_r3 (r : Reg) (v : Nibble) : (setReg s r v).r3 = if r = .r3 then v else s.r3 := by cases r <;> rfl
@[simp] theorem setReg_r4 (r : Reg) (v : Nibble) : (setReg s r v).r4 = if r = .r4 then v else s.r4 := by cases r <;> rfl
@[simp] theorem setReg_pc (r : Reg) (v : Nibble) : (setReg s r v).pc = s.pc := by cases r <;> rfl
@[simp] theorem setReg_stkPc (r : Reg) (v : Nibble) : (setReg s r v).stkPc = s.stkPc := by cases r <;> rfl
@[simp] theorem setReg_stkCf (r : Reg) (v : Nibble) : (setReg s r v).stkCf = s.stkCf := by cases r <;> rfl
@[simp] theorem setReg_cf (r : Reg) (v : Nibble) : (setReg s r v).cf = s.cf := by cases r <;> rfl
@[simp] theorem setReg_tf (r : Reg) (v : Nibble) : (setReg s r v).tf = s.tf := by cases r <;> rfl
@[simp] theorem setReg_tmr (r : Reg) (v : Nibble) : (setReg s r v).tmr = s.tmr := by cases r <;> rfl
@[simp] theorem setReg_ton (r : Reg) (v : Nibble) : (setReg s r v).ton = s.ton := by cases r <;> rfl
@[simp] theorem setReg_ie (r : Reg) (v : Nibble) : (setReg s r v).ie = s.ie := by cases r <;> rfl
@[simp] theorem setReg_extf (r : Reg) (v : Nibble) : (setReg s r v).extf = s.extf := by cases r <;> rfl
@[simp] theorem setReg_sub (r : Reg) (v : Nibble) : (setReg s r v).sub = s.sub := by cases r <;> rfl
@[simp] theorem setReg_halted (r : Reg) (v : Nibble) : (setReg s r v).halted = s.halted := by cases r <;> rfl
@[simp] theorem setReg_pa (r : Reg) (v : Nibble) : (setReg s r v).pa = s.pa := by cases r <;> rfl
@[simp] theorem setReg_sndCh (r : Reg) (v : Nibble) : (setReg s r v).sndCh = s.sndCh := by cases r <;> rfl
@[simp] theorem setReg_sndMode (r : Reg) (v : Nibble) : (setReg s r v).sndMode = s.sndMode := by cases r <;> rfl
@[simp] theorem setReg_sndOn (r : Reg) (v : Nibble) : (setReg s r v).sndOn = s.sndOn := by cases r <;> rfl
@[simp] theorem setReg_dm (r : Reg) (v : Nibble) : (setReg s r v).dm = s.dm := by cases r <;> rfl
@[simp] theorem setReg_rom (r : Reg) (v : Nibble) : (setReg s r v).rom = s.rom := by cases r <;> rfl
@[simp] theorem setReg_opts (r : Reg) (v : Nibble) : (setReg s r v).opts = s.opts := by cases r <;> rfl
@[simp] theorem setReg_pins (r : Reg) (v : Nibble) : (setReg s r v).pins = s.pins := by cases r <;> rfl
@[simp] theorem setReg_schedule (r : Reg) (v : Nibble) : (setReg s r v).schedule = s.schedule := by cases r <;> rfl
@[simp] theorem setReg_freeCount (r : Reg) (v : Nibble) : (setReg s r v).freeCount = s.freeCount := by cases r <;> rfl
@[simp] theorem setReg_ramEpoch (r : Reg) (v : Nibble) : (setReg s r v).ramEpoch = s.ramEpoch := by cases r <;> rfl

/-! ### `enterInterrupt` -/

@[simp] theorem enterInterrupt_acc (src : IntSource) : (enterInterrupt src s).acc = s.acc := by
  cases src <;> rfl
@[simp] theorem enterInterrupt_r0 (src : IntSource) : (enterInterrupt src s).r0 = s.r0 := by
  cases src <;> rfl
@[simp] theorem enterInterrupt_r1 (src : IntSource) : (enterInterrupt src s).r1 = s.r1 := by
  cases src <;> rfl
@[simp] theorem enterInterrupt_r2 (src : IntSource) : (enterInterrupt src s).r2 = s.r2 := by
  cases src <;> rfl
@[simp] theorem enterInterrupt_r3 (src : IntSource) : (enterInterrupt src s).r3 = s.r3 := by
  cases src <;> rfl
@[simp] theorem enterInterrupt_r4 (src : IntSource) : (enterInterrupt src s).r4 = s.r4 := by
  cases src <;> rfl
@[simp] theorem enterInterrupt_pc (src : IntSource) : (enterInterrupt src s).pc = if src = .external then 0x008 else 0x004 := by
  cases src <;> rfl
@[simp] theorem enterInterrupt_stkPc (src : IntSource) : (enterInterrupt src s).stkPc = s.pc := by
  cases src <;> rfl
@[simp] theorem enterInterrupt_stkCf (src : IntSource) : (enterInterrupt src s).stkCf = s.cf := by
  cases src <;> rfl
@[simp] theorem enterInterrupt_cf (src : IntSource) : (enterInterrupt src s).cf = s.cf := by
  cases src <;> rfl
@[simp] theorem enterInterrupt_tf (src : IntSource) : (enterInterrupt src s).tf = if src = .external then s.tf else false := by
  cases src <;> rfl
@[simp] theorem enterInterrupt_tmr (src : IntSource) : (enterInterrupt src s).tmr = s.tmr := by
  cases src <;> rfl
@[simp] theorem enterInterrupt_ton (src : IntSource) : (enterInterrupt src s).ton = s.ton := by
  cases src <;> rfl
@[simp] theorem enterInterrupt_ie (src : IntSource) : (enterInterrupt src s).ie = s.ie := by
  cases src <;> rfl
@[simp] theorem enterInterrupt_extf (src : IntSource) : (enterInterrupt src s).extf = if src = .external then false else s.extf := by
  cases src <;> rfl
@[simp] theorem enterInterrupt_sub (src : IntSource) : (enterInterrupt src s).sub = .isr := by
  cases src <;> rfl
@[simp] theorem enterInterrupt_halted (src : IntSource) : (enterInterrupt src s).halted = s.halted := by
  cases src <;> rfl
@[simp] theorem enterInterrupt_pa (src : IntSource) : (enterInterrupt src s).pa = s.pa := by
  cases src <;> rfl
@[simp] theorem enterInterrupt_sndCh (src : IntSource) : (enterInterrupt src s).sndCh = s.sndCh := by
  cases src <;> rfl
@[simp] theorem enterInterrupt_sndMode (src : IntSource) : (enterInterrupt src s).sndMode = s.sndMode := by
  cases src <;> rfl
@[simp] theorem enterInterrupt_sndOn (src : IntSource) : (enterInterrupt src s).sndOn = s.sndOn := by
  cases src <;> rfl
@[simp] theorem enterInterrupt_dm (src : IntSource) : (enterInterrupt src s).dm = s.dm := by
  cases src <;> rfl
@[simp] theorem enterInterrupt_rom (src : IntSource) : (enterInterrupt src s).rom = s.rom := by
  cases src <;> rfl
@[simp] theorem enterInterrupt_opts (src : IntSource) : (enterInterrupt src s).opts = s.opts := by
  cases src <;> rfl
@[simp] theorem enterInterrupt_pins (src : IntSource) : (enterInterrupt src s).pins = s.pins := by
  cases src <;> rfl
@[simp] theorem enterInterrupt_schedule (src : IntSource) : (enterInterrupt src s).schedule = s.schedule := by
  cases src <;> rfl
@[simp] theorem enterInterrupt_freeCount (src : IntSource) : (enterInterrupt src s).freeCount = s.freeCount := by
  cases src <;> rfl
@[simp] theorem enterInterrupt_ramEpoch (src : IntSource) : (enterInterrupt src s).ramEpoch = s.ramEpoch := by
  cases src <;> rfl

/-! ### `branchIf` -/

@[simp] theorem branchIf_acc (c : Bool) (addr : BitVec 11) : (branchIf c addr s).acc = s.acc := by cases c <;> rfl
@[simp] theorem branchIf_r0 (c : Bool) (addr : BitVec 11) : (branchIf c addr s).r0 = s.r0 := by cases c <;> rfl
@[simp] theorem branchIf_r1 (c : Bool) (addr : BitVec 11) : (branchIf c addr s).r1 = s.r1 := by cases c <;> rfl
@[simp] theorem branchIf_r2 (c : Bool) (addr : BitVec 11) : (branchIf c addr s).r2 = s.r2 := by cases c <;> rfl
@[simp] theorem branchIf_r3 (c : Bool) (addr : BitVec 11) : (branchIf c addr s).r3 = s.r3 := by cases c <;> rfl
@[simp] theorem branchIf_r4 (c : Bool) (addr : BitVec 11) : (branchIf c addr s).r4 = s.r4 := by cases c <;> rfl
@[simp] theorem branchIf_pc (c : Bool) (addr : BitVec 11) : (branchIf c addr s).pc = if c then condTarget s addr else s.pc + 2 := by cases c <;> rfl
@[simp] theorem branchIf_stkPc (c : Bool) (addr : BitVec 11) : (branchIf c addr s).stkPc = s.stkPc := by cases c <;> rfl
@[simp] theorem branchIf_stkCf (c : Bool) (addr : BitVec 11) : (branchIf c addr s).stkCf = s.stkCf := by cases c <;> rfl
@[simp] theorem branchIf_cf (c : Bool) (addr : BitVec 11) : (branchIf c addr s).cf = s.cf := by cases c <;> rfl
@[simp] theorem branchIf_tf (c : Bool) (addr : BitVec 11) : (branchIf c addr s).tf = s.tf := by cases c <;> rfl
@[simp] theorem branchIf_tmr (c : Bool) (addr : BitVec 11) : (branchIf c addr s).tmr = s.tmr := by cases c <;> rfl
@[simp] theorem branchIf_ton (c : Bool) (addr : BitVec 11) : (branchIf c addr s).ton = s.ton := by cases c <;> rfl
@[simp] theorem branchIf_ie (c : Bool) (addr : BitVec 11) : (branchIf c addr s).ie = s.ie := by cases c <;> rfl
@[simp] theorem branchIf_extf (c : Bool) (addr : BitVec 11) : (branchIf c addr s).extf = s.extf := by cases c <;> rfl
@[simp] theorem branchIf_sub (c : Bool) (addr : BitVec 11) : (branchIf c addr s).sub = s.sub := by cases c <;> rfl
@[simp] theorem branchIf_halted (c : Bool) (addr : BitVec 11) : (branchIf c addr s).halted = s.halted := by cases c <;> rfl
@[simp] theorem branchIf_pa (c : Bool) (addr : BitVec 11) : (branchIf c addr s).pa = s.pa := by cases c <;> rfl
@[simp] theorem branchIf_sndCh (c : Bool) (addr : BitVec 11) : (branchIf c addr s).sndCh = s.sndCh := by cases c <;> rfl
@[simp] theorem branchIf_sndMode (c : Bool) (addr : BitVec 11) : (branchIf c addr s).sndMode = s.sndMode := by cases c <;> rfl
@[simp] theorem branchIf_sndOn (c : Bool) (addr : BitVec 11) : (branchIf c addr s).sndOn = s.sndOn := by cases c <;> rfl
@[simp] theorem branchIf_dm (c : Bool) (addr : BitVec 11) : (branchIf c addr s).dm = s.dm := by cases c <;> rfl
@[simp] theorem branchIf_rom (c : Bool) (addr : BitVec 11) : (branchIf c addr s).rom = s.rom := by cases c <;> rfl
@[simp] theorem branchIf_opts (c : Bool) (addr : BitVec 11) : (branchIf c addr s).opts = s.opts := by cases c <;> rfl
@[simp] theorem branchIf_pins (c : Bool) (addr : BitVec 11) : (branchIf c addr s).pins = s.pins := by cases c <;> rfl
@[simp] theorem branchIf_schedule (c : Bool) (addr : BitVec 11) : (branchIf c addr s).schedule = s.schedule := by cases c <;> rfl
@[simp] theorem branchIf_freeCount (c : Bool) (addr : BitVec 11) : (branchIf c addr s).freeCount = s.freeCount := by cases c <;> rfl
@[simp] theorem branchIf_ramEpoch (c : Bool) (addr : BitVec 11) : (branchIf c addr s).ramEpoch = s.ramEpoch := by cases c <;> rfl

/-! ### `timerTick`, `soundEnds` -/

@[simp] theorem timerTick_acc : (timerTick s).acc = s.acc := by unfold timerTick; split <;> [split; skip] <;> rfl
@[simp] theorem timerTick_r0 : (timerTick s).r0 = s.r0 := by unfold timerTick; split <;> [split; skip] <;> rfl
@[simp] theorem timerTick_r1 : (timerTick s).r1 = s.r1 := by unfold timerTick; split <;> [split; skip] <;> rfl
@[simp] theorem timerTick_r2 : (timerTick s).r2 = s.r2 := by unfold timerTick; split <;> [split; skip] <;> rfl
@[simp] theorem timerTick_r3 : (timerTick s).r3 = s.r3 := by unfold timerTick; split <;> [split; skip] <;> rfl
@[simp] theorem timerTick_r4 : (timerTick s).r4 = s.r4 := by unfold timerTick; split <;> [split; skip] <;> rfl
@[simp] theorem timerTick_pc : (timerTick s).pc = s.pc := by unfold timerTick; split <;> [split; skip] <;> rfl
@[simp] theorem timerTick_stkPc : (timerTick s).stkPc = s.stkPc := by unfold timerTick; split <;> [split; skip] <;> rfl
@[simp] theorem timerTick_stkCf : (timerTick s).stkCf = s.stkCf := by unfold timerTick; split <;> [split; skip] <;> rfl
@[simp] theorem timerTick_cf : (timerTick s).cf = s.cf := by unfold timerTick; split <;> [split; skip] <;> rfl
@[simp] theorem timerTick_ton : (timerTick s).ton = s.ton := by unfold timerTick; split <;> [split; skip] <;> rfl
@[simp] theorem timerTick_ie : (timerTick s).ie = s.ie := by unfold timerTick; split <;> [split; skip] <;> rfl
@[simp] theorem timerTick_extf : (timerTick s).extf = s.extf := by unfold timerTick; split <;> [split; skip] <;> rfl
@[simp] theorem timerTick_sub : (timerTick s).sub = s.sub := by unfold timerTick; split <;> [split; skip] <;> rfl
@[simp] theorem timerTick_halted : (timerTick s).halted = s.halted := by unfold timerTick; split <;> [split; skip] <;> rfl
@[simp] theorem timerTick_pa : (timerTick s).pa = s.pa := by unfold timerTick; split <;> [split; skip] <;> rfl
@[simp] theorem timerTick_sndCh : (timerTick s).sndCh = s.sndCh := by unfold timerTick; split <;> [split; skip] <;> rfl
@[simp] theorem timerTick_sndMode : (timerTick s).sndMode = s.sndMode := by unfold timerTick; split <;> [split; skip] <;> rfl
@[simp] theorem timerTick_sndOn : (timerTick s).sndOn = s.sndOn := by unfold timerTick; split <;> [split; skip] <;> rfl
@[simp] theorem timerTick_dm : (timerTick s).dm = s.dm := by unfold timerTick; split <;> [split; skip] <;> rfl
@[simp] theorem timerTick_rom : (timerTick s).rom = s.rom := by unfold timerTick; split <;> [split; skip] <;> rfl
@[simp] theorem timerTick_opts : (timerTick s).opts = s.opts := by unfold timerTick; split <;> [split; skip] <;> rfl
@[simp] theorem timerTick_pins : (timerTick s).pins = s.pins := by unfold timerTick; split <;> [split; skip] <;> rfl
@[simp] theorem timerTick_schedule : (timerTick s).schedule = s.schedule := by unfold timerTick; split <;> [split; skip] <;> rfl
@[simp] theorem timerTick_freeCount : (timerTick s).freeCount = s.freeCount := by unfold timerTick; split <;> [split; skip] <;> rfl
@[simp] theorem timerTick_ramEpoch : (timerTick s).ramEpoch = s.ramEpoch := by unfold timerTick; split <;> [split; skip] <;> rfl
@[simp] theorem soundEnds_acc : (soundEnds s).acc = s.acc := by unfold soundEnds; split <;> rfl
@[simp] theorem soundEnds_r0 : (soundEnds s).r0 = s.r0 := by unfold soundEnds; split <;> rfl
@[simp] theorem soundEnds_r1 : (soundEnds s).r1 = s.r1 := by unfold soundEnds; split <;> rfl
@[simp] theorem soundEnds_r2 : (soundEnds s).r2 = s.r2 := by unfold soundEnds; split <;> rfl
@[simp] theorem soundEnds_r3 : (soundEnds s).r3 = s.r3 := by unfold soundEnds; split <;> rfl
@[simp] theorem soundEnds_r4 : (soundEnds s).r4 = s.r4 := by unfold soundEnds; split <;> rfl
@[simp] theorem soundEnds_pc : (soundEnds s).pc = s.pc := by unfold soundEnds; split <;> rfl
@[simp] theorem soundEnds_stkPc : (soundEnds s).stkPc = s.stkPc := by unfold soundEnds; split <;> rfl
@[simp] theorem soundEnds_stkCf : (soundEnds s).stkCf = s.stkCf := by unfold soundEnds; split <;> rfl
@[simp] theorem soundEnds_cf : (soundEnds s).cf = s.cf := by unfold soundEnds; split <;> rfl
@[simp] theorem soundEnds_tf : (soundEnds s).tf = s.tf := by unfold soundEnds; split <;> rfl
@[simp] theorem soundEnds_tmr : (soundEnds s).tmr = s.tmr := by unfold soundEnds; split <;> rfl
@[simp] theorem soundEnds_ton : (soundEnds s).ton = s.ton := by unfold soundEnds; split <;> rfl
@[simp] theorem soundEnds_ie : (soundEnds s).ie = s.ie := by unfold soundEnds; split <;> rfl
@[simp] theorem soundEnds_extf : (soundEnds s).extf = s.extf := by unfold soundEnds; split <;> rfl
@[simp] theorem soundEnds_sub : (soundEnds s).sub = s.sub := by unfold soundEnds; split <;> rfl
@[simp] theorem soundEnds_halted : (soundEnds s).halted = s.halted := by unfold soundEnds; split <;> rfl
@[simp] theorem soundEnds_pa : (soundEnds s).pa = s.pa := by unfold soundEnds; split <;> rfl
@[simp] theorem soundEnds_sndCh : (soundEnds s).sndCh = s.sndCh := by unfold soundEnds; split <;> rfl
@[simp] theorem soundEnds_sndMode : (soundEnds s).sndMode = s.sndMode := by unfold soundEnds; split <;> rfl
@[simp] theorem soundEnds_dm : (soundEnds s).dm = s.dm := by unfold soundEnds; split <;> rfl
@[simp] theorem soundEnds_rom : (soundEnds s).rom = s.rom := by unfold soundEnds; split <;> rfl
@[simp] theorem soundEnds_opts : (soundEnds s).opts = s.opts := by unfold soundEnds; split <;> rfl
@[simp] theorem soundEnds_pins : (soundEnds s).pins = s.pins := by unfold soundEnds; split <;> rfl
@[simp] theorem soundEnds_schedule : (soundEnds s).schedule = s.schedule := by unfold soundEnds; split <;> rfl
@[simp] theorem soundEnds_freeCount : (soundEnds s).freeCount = s.freeCount := by unfold soundEnds; split <;> rfl
@[simp] theorem soundEnds_ramEpoch : (soundEnds s).ramEpoch = s.ramEpoch := by unfold soundEnds; split <;> rfl

/-! ### `pinChange` -/

@[simp] theorem pinChange_acc (p : InPort) (i : Fin 4) (d : PinDrive) : (pinChange s p i d).acc = s.acc := by
  unfold pinChange; split <;> cases p <;> rfl
@[simp] theorem pinChange_r0 (p : InPort) (i : Fin 4) (d : PinDrive) : (pinChange s p i d).r0 = s.r0 := by
  unfold pinChange; split <;> cases p <;> rfl
@[simp] theorem pinChange_r1 (p : InPort) (i : Fin 4) (d : PinDrive) : (pinChange s p i d).r1 = s.r1 := by
  unfold pinChange; split <;> cases p <;> rfl
@[simp] theorem pinChange_r2 (p : InPort) (i : Fin 4) (d : PinDrive) : (pinChange s p i d).r2 = s.r2 := by
  unfold pinChange; split <;> cases p <;> rfl
@[simp] theorem pinChange_r3 (p : InPort) (i : Fin 4) (d : PinDrive) : (pinChange s p i d).r3 = s.r3 := by
  unfold pinChange; split <;> cases p <;> rfl
@[simp] theorem pinChange_r4 (p : InPort) (i : Fin 4) (d : PinDrive) : (pinChange s p i d).r4 = s.r4 := by
  unfold pinChange; split <;> cases p <;> rfl
@[simp] theorem pinChange_pc (p : InPort) (i : Fin 4) (d : PinDrive) : (pinChange s p i d).pc = s.pc := by
  unfold pinChange; split <;> cases p <;> rfl
@[simp] theorem pinChange_stkPc (p : InPort) (i : Fin 4) (d : PinDrive) : (pinChange s p i d).stkPc = s.stkPc := by
  unfold pinChange; split <;> cases p <;> rfl
@[simp] theorem pinChange_stkCf (p : InPort) (i : Fin 4) (d : PinDrive) : (pinChange s p i d).stkCf = s.stkCf := by
  unfold pinChange; split <;> cases p <;> rfl
@[simp] theorem pinChange_cf (p : InPort) (i : Fin 4) (d : PinDrive) : (pinChange s p i d).cf = s.cf := by
  unfold pinChange; split <;> cases p <;> rfl
@[simp] theorem pinChange_tf (p : InPort) (i : Fin 4) (d : PinDrive) : (pinChange s p i d).tf = s.tf := by
  unfold pinChange; split <;> cases p <;> rfl
@[simp] theorem pinChange_tmr (p : InPort) (i : Fin 4) (d : PinDrive) : (pinChange s p i d).tmr = s.tmr := by
  unfold pinChange; split <;> cases p <;> rfl
@[simp] theorem pinChange_ton (p : InPort) (i : Fin 4) (d : PinDrive) : (pinChange s p i d).ton = s.ton := by
  unfold pinChange; split <;> cases p <;> rfl
@[simp] theorem pinChange_ie (p : InPort) (i : Fin 4) (d : PinDrive) : (pinChange s p i d).ie = s.ie := by
  unfold pinChange; split <;> cases p <;> rfl
@[simp] theorem pinChange_sub (p : InPort) (i : Fin 4) (d : PinDrive) : (pinChange s p i d).sub = s.sub := by
  unfold pinChange; split <;> cases p <;> rfl
@[simp] theorem pinChange_pa (p : InPort) (i : Fin 4) (d : PinDrive) : (pinChange s p i d).pa = s.pa := by
  unfold pinChange; split <;> cases p <;> rfl
@[simp] theorem pinChange_sndCh (p : InPort) (i : Fin 4) (d : PinDrive) : (pinChange s p i d).sndCh = s.sndCh := by
  unfold pinChange; split <;> cases p <;> rfl
@[simp] theorem pinChange_sndMode (p : InPort) (i : Fin 4) (d : PinDrive) : (pinChange s p i d).sndMode = s.sndMode := by
  unfold pinChange; split <;> cases p <;> rfl
@[simp] theorem pinChange_sndOn (p : InPort) (i : Fin 4) (d : PinDrive) : (pinChange s p i d).sndOn = s.sndOn := by
  unfold pinChange; split <;> cases p <;> rfl
@[simp] theorem pinChange_dm (p : InPort) (i : Fin 4) (d : PinDrive) : (pinChange s p i d).dm = s.dm := by
  unfold pinChange; split <;> cases p <;> rfl
@[simp] theorem pinChange_rom (p : InPort) (i : Fin 4) (d : PinDrive) : (pinChange s p i d).rom = s.rom := by
  unfold pinChange; split <;> cases p <;> rfl
@[simp] theorem pinChange_opts (p : InPort) (i : Fin 4) (d : PinDrive) : (pinChange s p i d).opts = s.opts := by
  unfold pinChange; split <;> cases p <;> rfl
@[simp] theorem pinChange_schedule (p : InPort) (i : Fin 4) (d : PinDrive) : (pinChange s p i d).schedule = s.schedule := by
  unfold pinChange; split <;> cases p <;> rfl
@[simp] theorem pinChange_ramEpoch (p : InPort) (i : Fin 4) (d : PinDrive) : (pinChange s p i d).ramEpoch = s.ramEpoch := by
  unfold pinChange; split <;> cases p <;> rfl

@[simp] theorem pinChange_freeCount (p : InPort) (i : Fin 4) (d : PinDrive) :
    (pinChange s p i d).freeCount = s.freeCount + 1 := by
  unfold pinChange; split <;> cases p <;> rfl

end Sys2Proof.Machine
end

