-- ==== Sys2Proof/Laws/Ops.lean ====
section
/-! SUPPORT. One lemma for each shared operation that says everything it can do. -/

namespace Sys2Proof.Machine

variable {s t : State}

/-- A byte's high nibble is its quotient by 16. -/
theorem toNat_hiNibble (b : Byte) : (hiNibble b).toNat = b.toNat / 16 := by
  have := b.isLt
  simp [hiNibble, BitVec.extractLsb'_toNat, Nat.shiftRight_eq_div_pow]; omega

/-- A byte's low nibble is its remainder by 16. -/
theorem toNat_loNibble (b : Byte) : (loNibble b).toNat = b.toNat % 16 := by
  simp [loNibble, BitVec.extractLsb'_toNat]

theorem hiNibble_append (a b : Nibble) : hiNibble (a ++ b) = a := by
  apply BitVec.eq_of_toNat_eq
  rw [toNat_hiNibble, BitVec.toNat_append, ← Nat.shiftLeft_add_eq_or_of_lt b.isLt, Nat.shiftLeft_eq]
  have := b.isLt
  omega

theorem loNibble_append (a b : Nibble) : loNibble (a ++ b) = b := by
  apply BitVec.eq_of_toNat_eq
  rw [toNat_loNibble, BitVec.toNat_append, ← Nat.shiftLeft_add_eq_or_of_lt b.isLt, Nat.shiftLeft_eq]
  have := b.isLt
  omega

theorem nibbles_append (b : Byte) : hiNibble b ++ loNibble b = b := by
  apply BitVec.eq_of_toNat_eq
  rw [BitVec.toNat_append, ← Nat.shiftLeft_add_eq_or_of_lt (loNibble b).isLt, Nat.shiftLeft_eq, toNat_hiNibble,
    toNat_loNibble]
  omega

/-- A read goes on with the cell's value, or faults in the gap. -/
theorem readCell_populated {a : DataAddr} {k : Nibble → Result} (h : populated s.opts.device a = true) :
    readCell s a k = k (cellValue s a) := by simp [readCell, h]

theorem readCell_gap {a : DataAddr} {k : Nibble → Result} (h : populated s.opts.device a = false) :
    readCell s a k = .fault (.undefinedDataAddress a) := by simp [readCell, h]

/-- Everything a read that answers a next state can be. -/
theorem readCell_next_iff {a : DataAddr} {k : Nibble → Result} :
    readCell s a k = .next t ↔ populated s.opts.device a = true ∧ k (cellValue s a) = .next t := by
  unfold readCell; split <;> simp_all

/-- A write answers the state with the cell written, or faults in the gap. -/
theorem writeCell_populated {a : DataAddr} {v : Nibble} (h : populated s.opts.device a = true) :
    writeCell s a v = .next (setCell s a v) := by simp [writeCell, h]

theorem writeCell_gap {a : DataAddr} {v : Nibble} (h : populated s.opts.device a = false) :
    writeCell s a v = .fault (.undefinedDataAddress a) := by simp [writeCell, h]

theorem writeCell_next_iff {a : DataAddr} {v : Nibble} :
    writeCell s a v = .next t ↔ populated s.opts.device a = true ∧ t = setCell s a v := by
  cases h : populated s.opts.device a
  · simp [writeCell_gap h]
  · rw [writeCell_populated h, Host.Outcome.next.injEq]
    exact ⟨fun e => ⟨rfl, e.symm⟩, fun e => e.2.symm⟩

/-- A read-modify-write reads and writes one and the same cell. -/
theorem updateCell_populated {a : DataAddr} {f : Nibble → Nibble} (h : populated s.opts.device a = true) :
    updateCell s a f = .next (setCell (advance s 1) a (f (cellValue s a))) := by
  simp [updateCell, readCell, writeCell, h]

theorem updateCell_gap {a : DataAddr} {f : Nibble → Nibble} (h : populated s.opts.device a = false) :
    updateCell s a f = .fault (.undefinedDataAddress a) := by simp [updateCell, readCell, h]

theorem updateCell_next_iff {a : DataAddr} {f : Nibble → Nibble} :
    updateCell s a f = .next t ↔
      populated s.opts.device a = true ∧ t = setCell (advance s 1) a (f (cellValue s a)) := by
  cases h : populated s.opts.device a
  · simp [updateCell_gap h]
  · rw [updateCell_populated h, Host.Outcome.next.injEq]
    exact ⟨fun e => ⟨rfl, e.symm⟩, fun e => e.2.symm⟩

/-- A table read to R4 answers both nibbles of the byte, or faults in the gap. -/
theorem tableToR4_next_iff {page : Nibble} :
    tableToR4 page s = .next t ↔ populated s.opts.device (p10 s) = true ∧
      t = { advance s 1 with
            r4 := hiNibble (romRead s (tableAddr page s.acc (cellValue s (p10 s))))
            acc := loNibble (romRead s (tableAddr page s.acc (cellValue s (p10 s)))) } := by
  unfold tableToR4
  rw [readCell_next_iff, Host.Outcome.next.injEq]
  exact and_congr_right fun _ => eq_comm

/-- A table read to memory writes the cell at `P10` and the accumulator, or faults in the gap. -/
theorem tableToMem_next_iff {page : Nibble} :
    tableToMem page s = .next t ↔ populated s.opts.device (p10 s) = true ∧
      t = setCell { advance s 1 with acc := loNibble (romRead s (tableAddr page s.acc s.r4)) } (p10 s)
            (hiNibble (romRead s (tableAddr page s.acc s.r4))) := by
  simp [tableToMem, writeCell_next_iff]

/-- Which interrupt is accepted, and when (R316, R317). -/
theorem acceptedInterrupt_external_iff :
    acceptedInterrupt s = some .external ↔ s.halted = false ∧ s.ie = true ∧ s.sub = .main ∧ s.extf = true := by
  unfold acceptedInterrupt; split_ifs <;> simp_all

theorem acceptedInterrupt_timer_iff :
    acceptedInterrupt s = some .timer ↔
      s.halted = false ∧ s.ie = true ∧ s.sub = .main ∧ s.extf = false ∧ s.tf = true := by
  unfold acceptedInterrupt; split_ifs <;> simp_all

theorem acceptedInterrupt_none_iff :
    acceptedInterrupt s = none ↔
      ¬(s.halted = false ∧ s.ie = true ∧ s.sub = .main ∧ (s.extf = true ∨ s.tf = true)) := by
  unfold acceptedInterrupt; split_ifs <;> simp_all

/-- The adder's value and carry, as numbers. -/
theorem adder_value (a b : Nibble) (c : Bool) : (adder a b c).value.toNat = (a.toNat + b.toNat + c.toNat) % 16 := by
  simp [adder]

theorem adder_carry (a b : Nibble) (c : Bool) : (adder a b c).carry = decide (16 ≤ a.toNat + b.toNat + c.toNat) := rfl

end Sys2Proof.Machine
end

