-- ==== Sys2Proof/Laws/PerInstr.lean ====
section
/-! SUPPORT. Statements about every instruction as syntax, one lemma per constructor. -/

/-- R90: "An instruction is one byte or two bytes long; there is no other length". -/
def Sys2Proof.Laws.EncodedLength.Statement (i : Sys2Proof.Instr) : Prop := i.byteLength = 1 ∨ i.byteLength = 2

namespace Sys2Proof.Laws.EncodedLength

theorem rrA : Statement .rrA := .inl rfl
theorem rlA : Statement .rlA := .inl rfl
theorem rrcA : Statement .rrcA := .inl rfl
theorem rlcA : Statement .rlcA := .inl rfl
theorem movAM10 : Statement .movAM10 := .inl rfl
theorem movM10A : Statement .movM10A := .inl rfl
theorem movAM32 : Statement .movAM32 := .inl rfl
theorem movM32A : Statement .movM32A := .inl rfl
theorem adcAM : Statement .adcAM := .inl rfl
theorem addAM : Statement .addAM := .inl rfl
theorem sbcAM : Statement .sbcAM := .inl rfl
theorem subAM : Statement .subAM := .inl rfl
theorem incM10 : Statement .incM10 := .inl rfl
theorem decM10 : Statement .decM10 := .inl rfl
theorem incM32 : Statement .incM32 := .inl rfl
theorem decM32 : Statement .decM32 := .inl rfl
theorem incR0 : Statement .incR0 := .inl rfl
theorem decR0 : Statement .decR0 := .inl rfl
theorem incR1 : Statement .incR1 := .inl rfl
theorem decR1 : Statement .decR1 := .inl rfl
theorem incR2 : Statement .incR2 := .inl rfl
theorem decR2 : Statement .decR2 := .inl rfl
theorem incR3 : Statement .incR3 := .inl rfl
theorem decR3 : Statement .decR3 := .inl rfl
theorem incR4 : Statement .incR4 := .inl rfl
theorem decR4 : Statement .decR4 := .inl rfl
theorem andAM : Statement .andAM := .inl rfl
theorem xorAM : Statement .xorAM := .inl rfl
theorem orAM : Statement .orAM := .inl rfl
theorem andMA : Statement .andMA := .inl rfl
theorem xorMA : Statement .xorMA := .inl rfl
theorem orMA : Statement .orMA := .inl rfl
theorem movR0A : Statement .movR0A := .inl rfl
theorem movAR0 : Statement .movAR0 := .inl rfl
theorem movR1A : Statement .movR1A := .inl rfl
theorem movAR1 : Statement .movAR1 := .inl rfl
theorem movR2A : Statement .movR2A := .inl rfl
theorem movAR2 : Statement .movAR2 := .inl rfl
theorem movR3A : Statement .movR3A := .inl rfl
theorem movAR3 : Statement .movAR3 := .inl rfl
theorem movR4A : Statement .movR4A := .inl rfl
theorem movAR4 : Statement .movAR4 := .inl rfl
theorem clc : Statement .clc := .inl rfl
theorem stc : Statement .stc := .inl rfl
theorem ei : Statement .ei := .inl rfl
theorem di : Statement .di := .inl rfl
theorem ret : Statement .ret := .inl rfl
theorem reti : Statement .reti := .inl rfl
theorem outPAA : Statement .outPAA := .inl rfl
theorem incA : Statement .incA := .inl rfl
theorem inAPM : Statement .inAPM := .inl rfl
theorem inAPS : Statement .inAPS := .inl rfl
theorem inAPP : Statement .inAPP := .inl rfl
theorem daa : Statement .daa := .inl rfl
theorem halt : Statement .halt := .inr rfl
theorem timerOn : Statement .timerOn := .inl rfl
theorem timerOff : Statement .timerOff := .inl rfl
theorem movATmrl : Statement .movATmrl := .inl rfl
theorem movATmrh : Statement .movATmrh := .inl rfl
theorem movTmrlA : Statement .movTmrlA := .inl rfl
theorem movTmrhA : Statement .movTmrhA := .inl rfl
theorem nop : Statement .nop := .inl rfl
theorem decA : Statement .decA := .inl rfl
theorem addAX (x : Nibble) : Statement (.addAX x) := .inr rfl
theorem subAX (x : Nibble) : Statement (.subAX x) := .inr rfl
theorem andAX (x : Nibble) : Statement (.andAX x) := .inr rfl
theorem xorAX (x : Nibble) : Statement (.xorAX x) := .inr rfl
theorem orAX (x : Nibble) : Statement (.orAX x) := .inr rfl
theorem movR4X (x : Nibble) : Statement (.movR4X x) := .inr rfl
theorem soundN (n : Nibble) : Statement (.soundN n) := .inr rfl
theorem timerXX (xx : Byte) : Statement (.timerXX xx) := .inr rfl
theorem soundOne : Statement .soundOne := .inl rfl
theorem soundLoop : Statement .soundLoop := .inl rfl
theorem soundOff : Statement .soundOff := .inl rfl
theorem soundA : Statement .soundA := .inl rfl
theorem readR4A : Statement .readR4A := .inl rfl
theorem readFR4A : Statement .readFR4A := .inl rfl
theorem readMR0A : Statement .readMR0A := .inl rfl
theorem readFMR0A : Statement .readFMR0A := .inl rfl
theorem movR1R0XX (first second : Nibble) : Statement (.movR1R0XX first second) := .inr rfl
theorem movR3R2XX (first second : Nibble) : Statement (.movR3R2XX first second) := .inr rfl
theorem movAX (x : Nibble) : Statement (.movAX x) := .inl rfl
theorem jan (n : BitVec 2) (addr : BitVec 11) : Statement (.jan n addr) := .inr rfl
theorem jnzR0 (addr : BitVec 11) : Statement (.jnzR0 addr) := .inr rfl
theorem jnzR1 (addr : BitVec 11) : Statement (.jnzR1 addr) := .inr rfl
theorem jzA (addr : BitVec 11) : Statement (.jzA addr) := .inr rfl
theorem jnzA (addr : BitVec 11) : Statement (.jnzA addr) := .inr rfl
theorem jc (addr : BitVec 11) : Statement (.jc addr) := .inr rfl
theorem jnc (addr : BitVec 11) : Statement (.jnc addr) := .inr rfl
theorem jtmr (addr : BitVec 11) : Statement (.jtmr addr) := .inr rfl
theorem jnzR4 (addr : BitVec 11) : Statement (.jnzR4 addr) := .inr rfl
theorem jmp (addr : RomAddr) : Statement (.jmp addr) := .inr rfl
theorem call (addr : RomAddr) : Statement (.call addr) := .inr rfl

end Sys2Proof.Laws.EncodedLength
end

