-- ==== Sys2Proof/Laws/Pins.lean ====
section
/-! SUPPORT. Pins and their levels: what one pin reads after another's drive changed, and everything a change can do. -/

namespace Sys2Proof.Machine

theorem getPin_setPin (q : PortPins) (i j : Fin 4) (d : PinDrive) :
    getPin (setPin q i d) j = if j = i then d else getPin q j := by
  match i, j with
  | 0, 0 | 0, 1 | 0, 2 | 0, 3 => rfl
  | 1, 0 | 1, 1 | 1, 2 | 1, 3 => rfl
  | 2, 0 | 2, 1 | 2, 2 | 2, 3 => rfl
  | 3, 0 | 3, 1 | 3, 2 | 3, 3 => rfl

theorem portPins_setPortPins (s : State) (p p' : InPort) (q : PortPins) :
    portPins (setPortPins s p q) p' = if p' = p then q else portPins s p' := by
  cases p <;> cases p' <;> rfl

/-- Where the spec gives a pin a level, `pinLevel` is that level, whatever the free value. -/
theorem pinLevel_of_knownLevel {s : State} {p : InPort} {d : PinDrive} {level : Bool} (free : Bool)
    (h : knownLevel s p d = some level) : pinLevel (s.opts.pullUp p) free d = level := by
  cases d <;> simp_all [knownLevel, pinLevel]

/-- Everything a pin change can do: the new drive and one draw, and a wake-up when it is one. -/
theorem pinChange_cases (s : State) (p : InPort) (i : Fin 4) (d : PinDrive) :
    (s.halted = true ∧ (s.opts.wakeMask p).getLsbD i.val = true ∧ pinFalls s p i d = true ∧
      pinChange s p i d =
        { drawn (setPortPins s p (setPin (portPins s p) i d)) with extf := true, halted := false }) ∨
    (¬(s.halted = true ∧ (s.opts.wakeMask p).getLsbD i.val = true ∧ pinFalls s p i d = true) ∧
      pinChange s p i d = drawn (setPortPins s p (setPin (portPins s p) i d))) := by
  unfold pinChange
  split
  · rename_i h; exact .inl ⟨h.1, h.2.1, h.2.2, rfl⟩
  · rename_i h; exact .inr ⟨h, rfl⟩

/-- A pin falls when its level is known to be high before and low after. -/
theorem pinFalls_of_knownLevel {s : State} {p : InPort} {i : Fin 4} {d : PinDrive}
    (h1 : knownLevel s p (getPin (portPins s p) i) = some true) (h2 : knownLevel s p d = some false) :
    pinFalls s p i d = true := by
  simp only [pinFalls, pinLevel_of_knownLevel _ h1, pinLevel_of_knownLevel _ h2]
  rfl

/-- A pin does not fall when its level is known to be low before, or high after. -/
theorem not_pinFalls_of_knownLevel {s : State} {p : InPort} {i : Fin 4} {d : PinDrive}
    (h : knownLevel s p (getPin (portPins s p) i) = some false ∨ knownLevel s p d = some true) :
    pinFalls s p i d = false := by
  rcases h with h | h <;> simp [pinFalls, pinLevel_of_knownLevel _ h]

end Sys2Proof.Machine
end

