-- ==== Sys2Proof/Laws/Step.lean ====
section
/-! SUPPORT. Everything a step can do, said once: a proof about the step takes these cases and unfolds nothing. -/

namespace Sys2Proof.Machine

/-- A halted processor's turn. -/
theorem processorStep_of_halted {s : State} (h : s.halted = true) : processorStep s = .next s := by
  simp [processorStep, h]

/-- The turn that accepts an interrupt; an accepted one implies that the processor is not halted. -/
theorem processorStep_of_interrupt {s : State} {src : IntSource} (h : acceptedInterrupt s = some src) :
    processorStep s = .next (enterInterrupt src s) := by
  have hh : s.halted = false := by
    cases src
    · exact (acceptedInterrupt_external_iff.mp h).1
    · exact (acceptedInterrupt_timer_iff.mp h).1
  simp [processorStep, hh, h]

/-- The turn that executes. -/
theorem processorStep_of_none {s : State} (hh : s.halted = false) (h : acceptedInterrupt s = none) :
    processorStep s = runInstruction s := by
  simp [processorStep, hh, h]

theorem runInstruction_of_ok {s : State} {i : Instr} {rest : List Byte} (h : decode (fetchWindow s) = .ok (i, rest)) :
    runInstruction s = exec i s := by
  simp [runInstruction, h]

theorem runInstruction_of_error {s : State} {e : DecodeReject} (h : decode (fetchWindow s) = .error e) :
    runInstruction s = .fault (.undefinedEncoding s.pc) := by
  simp [runInstruction, h]

/-- What the processor's turn can answer. -/
theorem processorStep_cases (s : State) :
    (s.halted = true ∧ processorStep s = .next s) ∨
    (∃ src, s.halted = false ∧ acceptedInterrupt s = some src ∧ processorStep s = .next (enterInterrupt src s)) ∨
    (s.halted = false ∧ acceptedInterrupt s = none ∧
      ((∃ i rest, decode (fetchWindow s) = .ok (i, rest) ∧ processorStep s = exec i s) ∨
       (∃ e, decode (fetchWindow s) = .error e ∧ processorStep s = .fault (.undefinedEncoding s.pc)))) := by
  cases hh : s.halted
  · right
    cases ha : acceptedInterrupt s with
    | some src => exact .inl ⟨src, rfl, rfl, processorStep_of_interrupt ha⟩
    | none =>
      refine .inr ⟨rfl, rfl, ?_⟩
      rw [processorStep_of_none hh ha]
      cases hd : decode (fetchWindow s) with
      | ok p => exact .inl ⟨p.1, p.2, rfl, runInstruction_of_ok hd⟩
      | error e => exact .inr ⟨e, rfl, runInstruction_of_error hd⟩
  · exact .inl ⟨rfl, processorStep_of_halted hh⟩

/-- The step of a machine with nothing scheduled is the processor's. -/
theorem step_of_empty {s : State} (h : s.schedule = []) : step s = processorStep s := by
  unfold step machineStep; rw [h]

/-- A scheduled turn of the processor. -/
theorem step_of_processor {s : State} {q : List EnvEvent} (h : s.schedule = .processor :: q) :
    step s = processorStep { s with schedule := q } := by
  unfold step machineStep; rw [h]

/-- Any other scheduled event is the whole step, and always answers a next state. -/
theorem step_of_event {s : State} {e : EnvEvent} {q : List EnvEvent} (h : s.schedule = e :: q) (he : e ≠ .processor) :
    step s = .next (fireEvent e { s with schedule := q }) := by
  unfold step machineStep; rw [h]; cases e <;> first | rfl | exact absurd rfl he

/-- Acceptance and fetch do not look at the schedule. -/
@[simp] theorem acceptedInterrupt_schedule (s : State) (q : List EnvEvent) :
    acceptedInterrupt { s with schedule := q } = acceptedInterrupt s := rfl

@[simp] theorem fetchWindow_schedule (s : State) (q : List EnvEvent) :
    fetchWindow { s with schedule := q } = fetchWindow s := rfl

/-- Every step is the processor's turn, on the state with that turn taken off the schedule, or one event. -/
theorem step_cases (s : State) :
    ((s.schedule = [] ∨ ∃ q, s.schedule = .processor :: q) ∧
      step s = processorStep { s with schedule := s.schedule.tail }) ∨
    (∃ e q, e ≠ .processor ∧ s.schedule = e :: q ∧ step s = .next (fireEvent e { s with schedule := q })) := by
  cases hs : s.schedule with
  | nil =>
    left; refine ⟨.inl rfl, ?_⟩
    rw [step_of_empty hs]; congr 1; cases s; simp_all
  | cons e q =>
    by_cases he : e = .processor
    · subst he; exact .inl ⟨.inr ⟨q, rfl⟩, step_of_processor hs⟩
    · exact .inr ⟨e, q, he, rfl, step_of_event hs he⟩

/-- Everything behind a next state: a halted processor's idle turn, an interrupt entered, an instruction executed, or an
event. In each case the schedule has moved on by one. -/
theorem step_next_cases {s t : State} (h : step s = .next t) :
    (processorsTurn s = true ∧ eventNext s = none ∧
      ((s.halted = true ∧ t = { s with schedule := s.schedule.tail }) ∨
       (∃ src, entersNext s = some src ∧ t = enterInterrupt src { s with schedule := s.schedule.tail }) ∨
       (∃ i, executesNext s = some i ∧ s.halted = false ∧ exec i { s with schedule := s.schedule.tail } = .next t))) ∨
    (∃ e, processorsTurn s = false ∧ eventNext s = some e ∧ e ≠ .processor ∧
      t = fireEvent e { s with schedule := s.schedule.tail }) := by
  rcases step_cases s with ⟨hq, hs⟩ | ⟨e, q, he, hq, hs⟩
  · left
    have hp : processorsTurn s = true := by
      unfold processorsTurn
      rcases hq with hq | ⟨q, hq⟩ <;> simp [hq]
    refine ⟨hp, by simp [eventNext, hp], ?_⟩
    rw [hs] at h
    rcases processorStep_cases { s with schedule := s.schedule.tail } with
      ⟨h1, h2⟩ | ⟨src, h1, h2, h3⟩ | ⟨h1, h2, ⟨i, r, hd, he⟩ | ⟨e, hd, he⟩⟩
    · rw [h2] at h
      cases h
      exact .inl ⟨h1, rfl⟩
    · rw [h3] at h
      cases h
      exact .inr (.inl ⟨src, by simp only [entersNext, hp]; exact h2, rfl⟩)
    · rw [he] at h
      have hx : executesNext s = some i := by
        simp only [executesNext, hp, show s.halted = false from h1, show acceptedInterrupt s = none from h2,
          show decode (fetchWindow s) = .ok (i, r) from hd, and_self, if_true]
      exact .inr (.inr ⟨i, hx, h1, h⟩)
    · rw [he] at h
      cases h
  · right
    have hp : processorsTurn s = false := by
      unfold processorsTurn
      rw [hq]
      cases e <;> simp_all
    rw [hs] at h
    cases h
    exact ⟨e, hp, by simp [eventNext, hp, hq], he, by simp [hq]⟩

/-- A run goes on after a step that answers a next state. -/
theorem runSteps_of_next {s t : State} {n : Nat} (h : step s = .next t) : runSteps (n + 1) s = runSteps n t := by
  simp only [runSteps, h]

end Sys2Proof.Machine
end

