-- ==== Sys2Proof/Tests/Slice0.lean ====
section
/-! SUPPORT. Our own tests. Expected values are those of spec 95_test_vectors.md (the part is named) or are written out from
30_encoding.md. The witnesses at the end show, for each statement of Certificates/Slice0/Obligations.lean that has hypotheses, concrete
data that meet all of them. -/

namespace Sys2Proof.Tests

open Sys2Proof.Machine

/-! ### Well-formedness smoke -/

/-- A configuration of the HT44300 that R6 allows: `IMM8_FIRST_NIBBLE = HIGH`, pin PS2 wakes, PP has pull-up resistors. -/
def opts : Configuration where
  device := .ht44300
  supply := .v5
  pullPM := false
  pullPS := false
  pullPP := true
  wakePM := 0
  wakePS := 0b0100
  wakePP := 0
  paType := .cmos
  tmrSrc := .int 0
  sndDiv := 0
  lcdDrive := .duty4bias3
  fSysKHz := 32
  immFirst := .high
  extTmrInHalt := .frozen
  legal := rfl

/-- The larger device. -/
def optsA : Configuration := { opts with device := .ht443A0, lcdDrive := .duty8bias5, legal := rfl }

/-- A timer clocked from pad TMCLK that counts during HALT. -/
def optsExt : Configuration := { opts with tmrSrc := .ext, extTmrInHalt := .counts, legal := rfl }

/-- What is asked for in `opts`. -/
def asked : MaskOptions := opts.toMaskOptions

/-- What is asked for in `optsA`. -/
def askedA : MaskOptions := optsA.toMaskOptions

/-- Whether options make a machine (U4). -/
def makes (o : MaskOptions) : Bool := (State.resetFor o).isSome

theorem test_options_allowed : makes asked = true ∧ makes askedA = true ∧ makes optsExt.toMaskOptions = true := by decide

theorem test_reserved_divider_refused :
    makes { asked with tmrSrc := .int 6 } = false ∧ makes { asked with tmrSrc := .int 14 } = false := by decide

theorem test_lcd_drive_of_other_device_refused :
    makes { asked with lcdDrive := .duty8bias4 } = false ∧ makes { askedA with lcdDrive := .duty3bias3 } = false := by decide

/-- R6: 1/4 bias is for 3V and 1/5 bias for 5V. -/
theorem test_lcd_bias_of_other_supply_refused :
    makes { askedA with supply := .v3 } = false ∧ makes { askedA with lcdDrive := .duty8bias4 } = false ∧
    makes { askedA with supply := .v3, lcdDrive := .duty8bias4 } = true := by decide

theorem test_sound_divider_refused : makes { asked with sndDiv := 6 } = false := by decide

/-- R6: 32 to 2000 kHz at 3V, 32 to 4000 kHz at 5V. -/
theorem test_system_clock_refused :
    makes { asked with fSysKHz := 31 } = false ∧ makes { asked with fSysKHz := 4001 } = false ∧
    makes { asked with fSysKHz := 4000 } = true ∧ makes { asked with supply := .v3, fSysKHz := 4000 } = false ∧
    makes { asked with supply := .v3, fSysKHz := 2000 } = true := by decide

/-! ### Decoding (part 1.2 and 30_encoding.md: every constructor's word, bit by bit) -/

/-- Whether a first byte, then zeros, is the whole of a one-byte instruction. -/
def oneByte (p : Byte × Instr) : Bool :=
  match decode [p.1, 0] with
  | .ok (i, rest) => decide (i = p.2 ∧ rest = [0])
  | .error _ => false

/-- Whether two bytes are the whole of an instruction. -/
def twoBytes (p : (Byte × Byte) × Instr) : Bool :=
  match decode [p.1.1, p.1.2] with
  | .ok (i, rest) => decide (i = p.2 ∧ rest = [])
  | .error _ => false

theorem test_decode_rotates_moves_arith :
    [(0b00000000, .rrA), (0b00000001, .rlA), (0b00000010, .rrcA), (0b00000011, .rlcA), (0b00000100, .movAM10),
     (0b00000101, .movM10A), (0b00000110, .movAM32), (0b00000111, .movM32A), (0b00001000, .adcAM),
     (0b00001001, .addAM), (0b00001010, .sbcAM), (0b00001011, .subAM), (0b00001100, .incM10),
     (0b00001101, .decM10), (0b00001110, .incM32), (0b00001111, .decM32)].all oneByte = true := by decide

theorem test_decode_registers_logic :
    [(0b00010000, .incR0), (0b00010001, .decR0), (0b00010010, .incR1), (0b00010011, .decR1), (0b00010100, .incR2),
     (0b00010101, .decR2), (0b00010110, .incR3), (0b00010111, .decR3), (0b00011000, .incR4),
     (0b00011001, .decR4), (0b00011010, .andAM), (0b00011011, .xorAM), (0b00011100, .orAM),
     (0b00011101, .andMA), (0b00011110, .xorMA), (0b00011111, .orMA)].all oneByte = true := by decide

theorem test_decode_register_moves_flags :
    [(0b00100000, .movR0A), (0b00100001, .movAR0), (0b00100010, .movR1A), (0b00100011, .movAR1), (0b00100100, .movR2A),
     (0b00100101, .movAR2), (0b00100110, .movR3A), (0b00100111, .movAR3), (0b00101000, .movR4A),
     (0b00101001, .movAR4), (0b00101010, .clc), (0b00101011, .stc), (0b00101100, .ei), (0b00101101, .di),
     (0b00101110, .ret), (0b00101111, .reti)].all oneByte = true := by decide

theorem test_decode_ports_timer :
    [(0b00110000, .outPAA), (0b00110001, .incA), (0b00110010, .inAPM), (0b00110011, .inAPS), (0b00110100, .inAPP),
     (0b00110110, .daa), (0b00111000, .timerOn), (0b00111001, .timerOff), (0b00111010, .movATmrl),
     (0b00111011, .movATmrh), (0b00111100, .movTmrlA), (0b00111101, .movTmrhA), (0b00111110, .nop),
     (0b00111111, .decA)].all oneByte = true := by decide

theorem test_decode_sound_table_reads :
    [(0b01001000, .soundOne), (0b01001001, .soundLoop), (0b01001010, .soundOff), (0b01001011, .soundA),
     (0b01001100, .readR4A), (0b01001101, .readFR4A), (0b01001110, .readMR0A), (0b01001111, .readFMR0A),
     (0b01111010, .movAX 0xA)].all oneByte = true := by decide

theorem test_decode_immediates :
    [((0b00110111, 0b00111110), .halt), ((0b01000000, 0b00000110), .addAX 6), ((0b01000001, 0b00001010), .subAX 0xA),
     ((0b01000010, 0b00001100), .andAX 0xC), ((0b01000011, 0b00001010), .xorAX 0xA),
     ((0b01000100, 0b00000101), .orAX 5), ((0b01000101, 0b00001100), .soundN 0xC),
     ((0b01000110, 0b00001010), .movR4X 0xA), ((0b01000111, 0b10100101), .timerXX 0xA5),
     ((0b01011010, 0b00000101), .movR1R0XX 0xA 0x5), ((0b01101100, 0b00000011), .movR3R2XX 0xC 0x3)].all twoBytes = true := by
  decide

theorem test_decode_jumps :
    [((0b10011010, 0b10111100), .jan 3 0x2BC), ((0b10001000, 0b01000000), .jan 1 0x040),
     ((0b10100111, 0b11111111), .jnzR0 0x7FF), ((0b10101000, 0b01000000), .jnzR1 0x040),
     ((0b10110000, 0b01000000), .jzA 0x040), ((0b10111000, 0b01000000), .jnzA 0x040),
     ((0b11000001, 0b00100011), .jc 0x123), ((0b11001000, 0b00100000), .jnc 0x020),
     ((0b11010111, 0b11111111), .jtmr 0x7FF), ((0b11011111, 0b11111111), .jnzR4 0x7FF),
     ((0b11100001, 0b00100011), .jmp 0x123), ((0b11111111, 0b11111111), .call 0xFFF)].all twoBytes = true := by decide

/-- Part 4 and R105: bytes that are no instruction. -/
theorem test_decode_rejects :
    ([(0x35, 0x00), (0x37, 0x3F), (0x37, 0x00), (0x40, 0x16), (0x43, 0x15), (0x45, 0x1C), (0x46, 0x80), (0x5A, 0x15),
      (0x6F, 0x1F)].all fun p : Byte × Byte => match decode [p.1, p.2] with
        | .ok _ => false
        | .error _ => true) = true := by decide

/-- The opcode table's numbering: a two-byte row is one 16-bit word, first byte high. -/
theorem test_table_words :
    decodeTableWord 16 0x373E = some .halt ∧ decodeTableWord 8 0x3E = some .nop ∧
    decodeTableWord 16 0x9ABC = some (.jan 3 0x2BC) ∧ decodeTableWord 16 0x5A05 = some (.movR1R0XX 0xA 0x5) ∧
    decodeTableWord 8 0x35 = none := by decide

/-! ### One instruction (part 2) -/

/-- The machine at 100H, as most vectors start. -/
def base : State := { State.resetWith opts with pc := 0x100 }

/-- `base` with `R1 R0` and `R3 R2` pointing at 23H, and a value in that cell. -/
def pointing (v : Byte) : State := { base with r1 := 2, r0 := 3, r3 := 2, r2 := 3, dm := [(0x23, v)] }

/-- What one sees of the next state, if there is one. -/
def see {α : Type} (r : Result) (f : State → α) : Option α :=
  match r with
  | .next t => some (f t)
  | .fault _ => none
  | .refused _ => none

/-- The fault, if there is one. -/
def faultOf (r : Result) : Option Fault :=
  match r with
  | .next _ => none
  | .fault f => some f
  | .refused _ => none

/-- `PC`, `ACC` and `CF`. -/
def alu (t : State) : RomAddr × Nibble × Bool := (t.pc, t.acc, t.cf)

/-- `PC`, the cell at 23H and `CF`. -/
def cell23 (t : State) : RomAddr × Nibble × Bool := (t.pc, cellValue t 0x23, t.cf)

theorem test_add :
    see (exec .addAM { pointing 8 with acc := 7, cf := true }) alu = some (0x101, 0xF, false) ∧
    see (exec .addAM { pointing 0xF with acc := 0xF }) alu = some (0x101, 0xE, true) := by decide

theorem test_adc :
    see (exec .adcAM { pointing 6 with acc := 9, cf := true }) alu = some (0x101, 0, true) ∧
    see (exec .adcAM { pointing 0xF with acc := 0xF, cf := true }) alu = some (0x101, 0xF, true) := by decide

theorem test_sub :
    see (exec .subAM { pointing 7 with acc := 5, cf := true }) alu = some (0x101, 0xE, false) ∧
    see (exec .subAM { pointing 3 with acc := 3 }) alu = some (0x101, 0, true) := by decide

theorem test_sbc :
    see (exec .sbcAM { pointing 0xF with acc := 0 }) alu = some (0x101, 0, false) ∧
    see (exec .sbcAM { pointing 0 with acc := 0xF, cf := true }) alu = some (0x101, 0xF, true) := by decide

theorem test_add_immediate :
    see (exec (.addAX 6) { base with acc := 0xA, cf := true }) alu = some (0x102, 0, true) ∧
    see (exec (.addAX 0) { base with acc := 4, cf := true }) alu = some (0x102, 4, false) := by decide

theorem test_sub_immediate :
    see (exec (.subAX 0xA) { base with acc := 9 }) alu = some (0x102, 0xF, false) ∧
    see (exec (.subAX 9) { base with acc := 9 }) alu = some (0x102, 0, true) := by decide

theorem test_daa :
    see (exec .daa { base with acc := 0xA }) alu = some (0x101, 0, true) ∧
    see (exec .daa { base with acc := 9 }) alu = some (0x101, 9, false) ∧
    see (exec .daa { base with acc := 1, cf := true }) alu = some (0x101, 7, true) := by decide

theorem test_gap_by_device :
    faultOf (exec .addAM { base with acc := 1, r1 := 8 }) = some (.undefinedDataAddress 0x80) ∧
    see (exec .addAM { base with opts := optsA, acc := 1, r1 := 8, dm := [(0x80, 2)] }) alu = some (0x101, 3, false) ∧
    faultOf (exec .addAM { base with opts := optsA, r1 := 0xA, r0 := 5 }) = some (.undefinedDataAddress 0xA5) := by decide

theorem test_logic_to_accumulator :
    see (exec .andAM { pointing 0xA with acc := 0xC, cf := true }) alu = some (0x101, 8, true) ∧
    see (exec .orAM { pointing 0xA with acc := 0xC, cf := true }) alu = some (0x101, 0xE, true) ∧
    see (exec .xorAM { pointing 0xA with acc := 0xC, cf := true }) alu = some (0x101, 6, true) := by decide

theorem test_logic_to_memory :
    see (exec .andMA { pointing 0xA with acc := 0xC, cf := true }) cell23 = some (0x101, 8, true) ∧
    see (exec .orMA { pointing 0xA with acc := 0xC, cf := true }) cell23 = some (0x101, 0xE, true) ∧
    see (exec .xorMA { pointing 0xA with acc := 0xC, cf := true }) cell23 = some (0x101, 6, true) := by decide

theorem test_logic_immediate :
    see (exec (.andAX 0xC) { base with acc := 0xA, cf := true }) alu = some (0x102, 8, true) ∧
    see (exec (.orAX 5) { base with acc := 0xA }) alu = some (0x102, 0xF, false) ∧
    see (exec (.xorAX 0xF) { base with acc := 5 }) alu = some (0x102, 0xA, false) := by decide

theorem test_inc_dec_accumulator :
    see (exec .incA { base with acc := 0xF }) alu = some (0x101, 0, false) ∧
    see (exec .decA { base with acc := 0, cf := true }) alu = some (0x101, 0xF, true) := by decide

theorem test_inc_registers :
    see (exec .incR0 { base with r0 := 0xF, r1 := 3 }) (fun t => (t.r0, t.r1)) = some (0, 3) ∧
    see (exec .incR1 base) (fun t => t.r1) = some 1 ∧ see (exec .incR2 { base with r2 := 9 }) (fun t => t.r2) = some 0xA ∧
    see (exec .incR3 { base with r3 := 0xF }) (fun t => t.r3) = some 0 ∧
    see (exec .incR4 { base with r4 := 4 }) (fun t => t.r4) = some 5 := by decide

theorem test_dec_registers :
    see (exec .decR0 { base with r1 := 3 }) (fun t => (t.r0, t.r1)) = some (0xF, 3) ∧
    see (exec .decR1 { base with r1 := 1 }) (fun t => t.r1) = some 0 ∧ see (exec .decR2 base) (fun t => t.r2) = some 0xF ∧
    see (exec .decR3 { base with r3 := 8 }) (fun t => t.r3) = some 7 ∧ see (exec .decR4 base) (fun t => t.r4) = some 0xF := by
  decide

theorem test_inc_dec_memory :
    see (exec .incM10 (pointing 0xF)) cell23 = some (0x101, 0, false) ∧
    see (exec .decM10 (pointing 0)) cell23 = some (0x101, 0xF, false) ∧
    see (exec .incM32 { base with r3 := 0xE, dm := [(0xE0, 6)] }) (fun t => cellValue t 0xE0) = some 7 ∧
    see (exec .decM32 { base with r3 := 0xF, r2 := 0xF, dm := [(0xFF, 1)] }) (fun t => cellValue t 0xFF) = some 0 := by decide

theorem test_moves_from_registers :
    see (exec .movAR0 { base with r0 := 9 }) alu = some (0x101, 9, false) ∧
    see (exec .movAR1 { base with r1 := 4 }) alu = some (0x101, 4, false) ∧
    see (exec .movAR2 { base with r2 := 3 }) alu = some (0x101, 3, false) ∧
    see (exec .movAR3 { base with r3 := 2 }) alu = some (0x101, 2, false) ∧
    see (exec .movAR4 { base with r4 := 0xC }) alu = some (0x101, 0xC, false) := by decide

theorem test_moves_to_registers :
    see (exec .movR0A { base with acc := 7 }) (fun t => t.r0) = some 7 ∧
    see (exec .movR1A { base with acc := 7 }) (fun t => t.r1) = some 7 ∧
    see (exec .movR2A { base with acc := 9 }) (fun t => t.r2) = some 9 ∧
    see (exec .movR3A { base with acc := 0xE }) (fun t => t.r3) = some 0xE ∧
    see (exec .movR4A { base with acc := 1 }) (fun t => t.r4) = some 1 := by decide

theorem test_loads_and_stores :
    see (exec .movAM10 (pointing 6)) alu = some (0x101, 6, false) ∧
    see (exec .movAM32 { base with r3 := 0xE, r2 := 1, dm := [(0xE1, 9)] }) alu = some (0x101, 9, false) ∧
    see (exec .movM10A { base with r1 := 7, r0 := 0xF, acc := 0xB }) (fun t => t.dm) = some [(0x7F, 0xB)] ∧
    see (exec .movM32A { base with r3 := 0xF, r2 := 0xF, acc := 5 }) (fun t => t.dm) = some [(0xFF, 5)] := by decide

theorem test_immediate_loads :
    see (exec (.movAX 0xF) { base with acc := 3, cf := true }) alu = some (0x101, 0xF, true) ∧
    see (exec (.movR4X 9) base) (fun t => (t.pc, t.r4)) = some (0x102, 9) := by decide

theorem test_pair_loads_both_orders :
    see (exec (.movR1R0XX 0xA 5) base) (fun t => (t.pc, t.r1, t.r0)) = some (0x102, 0xA, 5) ∧
    see (exec (.movR1R0XX 0xA 5) { base with opts := { opts with immFirst := .low, legal := rfl } }) (fun t => (t.r1, t.r0)) = some (5, 0xA) ∧
    see (exec (.movR3R2XX 0xC 3) base) (fun t => (t.pc, t.r3, t.r2)) = some (0x102, 0xC, 3) ∧
    see (exec (.movR3R2XX 0xC 3) { base with opts := { opts with immFirst := .low, legal := rfl } }) (fun t => (t.r3, t.r2)) = some (3, 0xC) := by
  decide

theorem test_rotates_left :
    see (exec .rlA { base with acc := 9 }) alu = some (0x101, 3, true) ∧
    see (exec .rlA { base with acc := 6, cf := true }) alu = some (0x101, 0xC, false) ∧
    see (exec .rlcA { base with acc := 9 }) alu = some (0x101, 2, true) ∧
    see (exec .rlcA { base with cf := true }) alu = some (0x101, 1, false) := by decide

theorem test_rotates_right :
    see (exec .rrA { base with acc := 9 }) alu = some (0x101, 0xC, true) ∧
    see (exec .rrA { base with acc := 6, cf := true }) alu = some (0x101, 3, false) ∧
    see (exec .rrcA { base with acc := 9 }) alu = some (0x101, 4, true) ∧
    see (exec .rrcA { base with acc := 8, cf := true }) alu = some (0x101, 0xC, false) := by decide

/-- Pins PM=1010, PS=0001, PP=1111. -/
def pinned : State :=
  { base with pins := ⟨⟨.low, .high, .low, .high⟩, ⟨.high, .low, .low, .low⟩, ⟨.high, .high, .high, .high⟩⟩ }

theorem test_ports :
    see (exec .inAPM pinned) alu = some (0x101, 0xA, false) ∧ see (exec .inAPS pinned) alu = some (0x101, 1, false) ∧
    see (exec .inAPP pinned) alu = some (0x101, 0xF, false) ∧
    see (exec .outPAA { base with acc := 6 }) (fun t => (t.pc, t.pa)) = some (0x101, 6) := by decide

/-- R38: unconnected pins with pull-high resistors read 1. -/
theorem test_port_pulled_up : see (exec .inAPP base) alu = some (0x101, 0xF, false) := by decide

/-- `PC`, for the jumps. -/
def pcOf (t : State) : RomAddr := t.pc

theorem test_jmp : see (exec (.jmp 0x800) { base with pc := 0xFFF }) pcOf = some 0x800 := by decide

theorem test_carry_jumps :
    see (exec (.jc 0x020) { base with pc := 0x030, cf := true }) pcOf = some 0x020 ∧
    see (exec (.jc 0x020) { base with pc := 0x030 }) pcOf = some 0x032 ∧
    see (exec (.jnc 0x020) { base with pc := 0x030 }) pcOf = some 0x020 ∧
    see (exec (.jnc 0x020) { base with pc := 0x030, cf := true }) pcOf = some 0x032 := by decide

theorem test_half_boundary :
    see (exec (.jc 0x123) { base with pc := 0x7FC, cf := true }) pcOf = some 0x123 ∧
    see (exec (.jc 0x123) { base with pc := 0x7FE, cf := true }) pcOf = some 0x923 ∧
    see (exec (.jc 0x123) { base with pc := 0xFFE, cf := true }) pcOf = some 0x123 ∧
    see (exec (.jc 0x123) { base with pc := 0xFFE }) pcOf = some 0x000 := by decide

theorem test_jtmr :
    see (exec (.jtmr 0x020) { base with pc := 0x030, tf := true }) (fun t => (t.pc, t.tf)) = some (0x020, false) ∧
    see (exec (.jtmr 0x020) { base with pc := 0x030 }) (fun t => (t.pc, t.tf)) = some (0x032, false) := by decide

theorem test_accumulator_bit_jump :
    see (exec (.jan 1 0x040) { base with acc := 0xD }) pcOf = some 0x102 ∧
    see (exec (.jan 2 0x040) { base with acc := 4 }) pcOf = some 0x040 ∧
    see (exec (.jan 3 0x7FF) { base with acc := 8 }) pcOf = some 0x7FF := by decide

theorem test_zero_jumps :
    see (exec (.jzA 0x040) base) pcOf = some 0x040 ∧ see (exec (.jzA 0x040) { base with acc := 1 }) pcOf = some 0x102 ∧
    see (exec (.jnzA 0x040) base) pcOf = some 0x102 ∧ see (exec (.jnzA 0x040) { base with acc := 0xF }) pcOf = some 0x040 := by decide

theorem test_register_jumps :
    see (exec (.jnzR0 0x040) { base with r1 := 1, r4 := 1 }) pcOf = some 0x102 ∧
    see (exec (.jnzR0 0x040) { base with r0 := 5 }) pcOf = some 0x040 ∧
    see (exec (.jnzR1 0x040) { base with r1 := 1 }) pcOf = some 0x040 ∧
    see (exec (.jnzR4 0x040) { base with r4 := 0xF }) pcOf = some 0x040 := by decide

/-- The stack register, `PC`, `CF` and `SUB`. -/
def linkage (t : State) : RomAddr × RomAddr × Bool × SubMode := (t.pc, t.stkPc, t.cf, t.sub)

theorem test_call :
    see (exec (.call 0x200) { base with cf := true }) linkage = some (0x200, 0x102, true, .called) ∧
    faultOf (exec (.call 0x200) { base with sub := .isr }) = some .callInInterruptRoutine := by decide

theorem test_ret_keeps_carry :
    see (exec .ret { base with sub := .isr, stkPc := 0x017, stkCf := true }) linkage = some (0x017, 0x017, false, .main) := by
  decide

theorem test_reti_restores_carry :
    see (exec .reti { base with sub := .isr, stkPc := 0x017, stkCf := true }) linkage = some (0x017, 0x017, true, .main) := by
  decide

theorem test_flag_instructions :
    see (exec .clc { base with cf := true }) alu = some (0x101, 0, false) ∧ see (exec .stc base) alu = some (0x101, 0, true) ∧
    see (exec .nop { base with cf := true }) alu = some (0x101, 0, true) := by decide

theorem test_interrupt_enable :
    see (exec .ei base) (fun t => (t.pc, t.ie)) = some (0x101, true) ∧
    see (exec .di { base with ie := true, extf := true }) (fun t => (t.ie, t.extf)) = some (false, true) := by decide

/-- `PC`, `ACC`, `TMR`, `TON` and `TF`. -/
def timer (t : State) : (RomAddr × Nibble × Byte) × Bool × Bool := ((t.pc, t.acc, t.tmr), (t.ton, t.tf))

theorem test_timer_control :
    see (exec (.timerXX 0xFE) { base with tf := true }) timer = some ((0x102, 0, 0xFE), (false, true)) ∧
    see (exec .timerOn base) timer = some ((0x101, 0, 0), (true, false)) ∧
    see (exec .timerOff { base with ton := true, tf := true }) timer = some ((0x101, 0, 0), (false, true)) := by decide

theorem test_timer_nibble_reads :
    see (exec .movATmrl { base with tmr := 0xA5 }) alu = some (0x101, 5, false) ∧
    see (exec .movATmrh { base with tmr := 0xA5 }) alu = some (0x101, 0xA, false) := by decide

theorem test_timer_nibble_writes :
    see (exec .movTmrlA { base with tmr := 0xA5, acc := 3 }) (fun t => (t.pc, t.tmr)) = some (0x101, 0xA3) ∧
    see (exec .movTmrhA { base with tmr := 0xA5, acc := 3 }) (fun t => (t.pc, t.tmr)) = some (0x101, 0x35) := by decide

/-- A table byte in page 3, page F, page 4 and page 0. -/
def tables : State :=
  { base with pc := 0x310, acc := 2, r4 := 5, dm := [(0x00, 5)], rom := [(0x025, 0x91), (0x325, 0xA7), (0x425, 0x3C), (0xF25, 0x5B)] }

/-- `PC`, `R4`, `ACC` and the cell at 10H. -/
def tableSeen (t : State) : RomAddr × Nibble × Nibble := (t.pc, t.r4, t.acc)

theorem test_table_to_r4 :
    see (exec .readR4A tables) tableSeen = some (0x311, 0xA, 7) ∧ see (exec .readFR4A tables) tableSeen = some (0x311, 5, 0xB) := by
  decide

theorem test_table_page_margin :
    see (exec .readR4A { tables with pc := 0x3FF }) tableSeen = some (0x400, 3, 0xC) ∧
    see (exec .readR4A { tables with pc := 0xFFF }) tableSeen = some (0x000, 9, 1) := by decide

theorem test_table_to_memory :
    see (exec .readMR0A { tables with r1 := 1 }) (fun t => (t.acc, cellValue t 0x10)) = some (7, 0xA) ∧
    see (exec .readFMR0A { tables with r1 := 1 }) (fun t => (t.acc, cellValue t 0x10)) = some (0xB, 5) := by decide

/-- The sound control state. -/
def sound (t : State) : (RomAddr × Nibble) × SingMode × Bool := ((t.pc, t.sndCh), (t.sndMode, t.sndOn))

theorem test_sound :
    see (exec (.soundN 0xC) base) sound = some ((0x102, 0xC), (.one, true)) ∧
    see (exec .soundA { base with acc := 3 }) sound = some ((0x101, 3), (.one, true)) ∧
    see (exec .soundOne { base with sndMode := .loop }) sound = some ((0x101, 0), (.one, false)) ∧
    see (exec .soundLoop base) sound = some ((0x101, 0), (.loop, false)) ∧
    see (exec .soundOff { base with sndOn := true, sndCh := 3 }) sound = some ((0x101, 3), (.one, false)) := by decide

theorem test_halt :
    see (exec .halt { base with extf := true }) (fun t => (t.pc, t.halted, t.extf)) = some (0x102, true, true) := by decide

/-! ### Steps (parts 2.8 and 2.11) -/

/-- At 123H with a `NOP` there, ready for an interrupt. -/
def atBoundary : State :=
  { base with pc := 0x123, ie := true, cf := true, rom := [(0x008, 0x2F), (0x009, 0x00), (0x123, 0x3E), (0x124, 0x00)] }

/-- What interrupt entry touches. -/
def entry (t : State) : RomAddr × RomAddr × Bool × Bool × Bool := (t.pc, t.stkPc, t.stkCf, t.extf, t.tf)

theorem test_interrupt_entry :
    see (step { atBoundary with extf := true, tf := true }) entry = some (0x008, 0x123, true, false, true) ∧
    see (step { atBoundary with tf := true }) entry = some (0x004, 0x123, true, false, false) := by decide

theorem test_interrupt_held :
    see (step { atBoundary with ie := false, extf := true }) entry = some (0x124, 0, false, true, false) ∧
    see (step { atBoundary with sub := .called, extf := true }) entry = some (0x124, 0, false, true, false) := by decide

theorem test_step_undefined_encoding :
    faultOf (step { base with rom := [(0x100, 0x40), (0x101, 0x16)] }) = some (.undefinedEncoding 0x100) := by decide

theorem test_tick :
    see (step { base with ton := true, tmr := 0xFF, schedule := [.timerClock] }) timer = some ((0x100, 0, 0x00), (true, true)) ∧
    see (step { base with ton := true, tmr := 0xFF, halted := true, schedule := [.timerClock] }) timer =
      some ((0x100, 0, 0xFF), (true, false)) ∧
    see (step { base with opts := optsExt, ton := true, tmr := 0xFF, halted := true, schedule := [.timerClock] }) timer =
      some ((0x100, 0, 0x00), (true, true)) := by decide

/-- A halted machine whose pin PS2 is high and falls. -/
def wakes : State :=
  { base with halted := true, pins := ⟨.allFloating, ⟨.low, .low, .high, .low⟩, .allFloating⟩, schedule := [.pinChange .ps 2 .low] }

theorem test_wake_edge :
    see (step wakes) (fun t => (t.halted, t.extf)) = some (false, true) ∧
    see (step { wakes with opts := { opts with wakePS := 0, legal := rfl } }) (fun t => (t.halted, t.extf)) = some (true, false) ∧
    see (step { wakes with halted := false }) (fun t => (t.halted, t.extf)) = some (false, false) := by decide

theorem test_int_edge :
    see (step { base with halted := true, schedule := [.intFalls] }) (fun t => (t.halted, t.extf)) = some (false, true) := by decide

theorem test_reset :
    see (step { atBoundary with pa := 0, halted := true, ton := true, sub := .isr, schedule := [.resetPulse] })
      (fun t => ((t.pc, t.cf, t.ie, t.ton), (t.sub, t.halted, t.pa))) = some ((0x000, false, false, false), (.main, false, 0xF)) := by
  decide

/-- The first instruction after reset, placed by `withFetchWord`. -/
theorem test_placed_word_runs :
    see (step (State.reset.withFetchWord 16 0x46A0)) pcOf = none ∧
    see (step (State.reset.withFetchWord 16 0x460A)) (fun t => (t.pc, t.r4)) = some (0x002, 0xA) := by decide

/-! ### The surroundings' view -/

theorem test_output_pins :
    paPin { base with pa := 0b0100 } 2 = .drivenHigh ∧ paPin { base with pa := 0b0100 } 3 = .drivenLow ∧
    paPin { base with opts := { opts with paType := .nmosOpenDrain, legal := rfl } } 0 = .floating := by decide

theorem test_sound_view :
    soundPlaying { base with sndOn := true, sndCh := 3 } = some (3, .one) ∧ soundPlaying base = none ∧ soundNotes 12 = 64 := by
  decide

/-- R338: "The bit counts match exactly". -/
theorem test_display_size :
    4 * (displayAddrs .ht44300).length = lcdSegments .ht44300 * lcdCommons .ht44300 ∧
    4 * (displayAddrs .ht443A0).length = lcdSegments .ht443A0 * lcdCommons .ht443A0 := by decide +kernel

theorem test_sound_clock : soundClockHz { asked with fSysKHz := 512, sndDiv := 2 } = 128000 := by decide

theorem test_cycles : Instr.cycles .readR4A = 2 ∧ Instr.cycles .nop = 1 ∧ Instr.cycles .halt = 2 ∧ machineCycleNs 4000 = 1000 := by
  decide

/-! ### Witnesses of the statements' hypotheses -/

/-- A pointer to the given address, in both pairs. -/
def aimed (o : Configuration) (hi lo : Nibble) : State := { base with opts := o, r1 := hi, r0 := lo, r3 := hi, r2 := lo }

/-- `populated` at every boundary of R42, both devices, through both pointers. -/
theorem witness_populated :
    ([aimed opts 0 0, aimed opts 7 0xF, aimed opts 0xE 0, aimed opts 0xF 0xF, aimed optsA 8 0, aimed optsA 9 0xF,
      aimed optsA 0xB 0, aimed optsA 0xD 0xF].all fun s =>
        populated s.opts.device (p10 s) && populated s.opts.device (p32 s)) = true := by decide

/-- The gap at each of its boundaries, both devices, through both pointers. -/
theorem witness_gap :
    ([aimed opts 8 0, aimed opts 0xD 0xF, aimed optsA 0xA 0, aimed optsA 0xA 0xF].all fun s =>
        !populated s.opts.device (p10 s) && !populated s.opts.device (p32 s)) = true := by decide

theorem witness_AdditionResults : populated (pointing 8).opts.device (p10 (pointing 8)) = true := by decide

theorem witness_SubtractionResults : populated (pointing 7).opts.device (p10 (pointing 7)) = true := by decide

/-- The pointer of `MOV [R1R0],A` and the like; also for LogicToAccumulator, LogicToMemory, IncDecMemory, MemoryMoves. -/
theorem witness_MemoryForms :
    populated (pointing 8).opts.device (p10 (pointing 8)) = true ∧ populated (pointing 8).opts.device (p32 (pointing 8)) = true := by
  decide

theorem witness_DecimalAdditionProperty :
    populated (pointing 9).opts.device (p10 (pointing 9)) = true ∧ ({ pointing 9 with acc := 9 } : State).acc.toNat ≤ 9 ∧
    (cellValue (pointing 9) (p10 (pointing 9))).toNat ≤ 9 := by decide

/-- Also for CurrentPageReads. -/
theorem witness_PageFReads :
    populated tables.opts.device (p10 tables) = true ∧
    populated ({ tables with r1 := 8 } : State).opts.device (p10 { tables with r1 := 8 }) = false := by decide

/-- The first and the last cell of each device's display, through both pointers. -/
theorem witness_DisplayShowsStores :
    ([aimed opts 0xE 0, aimed opts 0xF 0xF, aimed optsA 0xB 0, aimed optsA 0xF 0xF].all fun s =>
      !s.halted && displayArea s.opts.device (p10 s) && displayArea s.opts.device (p32 s)) = true := by decide

theorem witness_GapAccessFaults :
    usesP10 .addAM = true ∧ populated (aimed opts 8 0).opts.device (p10 (aimed opts 8 0)) = false ∧
    usesP32 .movAM32 = true ∧ populated (aimed opts 8 0).opts.device (p32 (aimed opts 8 0)) = false := by decide

theorem witness_EncodeDecodeRoundTrip : decode [0x37, 0x3E, 0x00] = .ok (.halt, [0x00]) := rfl

theorem witness_LengthFromFirstByte :
    decode [0x3F, 0x00] = .ok (.decA, [0x00]) ∧ decode [0x48] = .ok (.soundOne, []) ∧ decode [0x4F] = .ok (.readFMR0A, []) ∧
    decode [0x70] = .ok (.movAX 0, []) ∧ decode [0x7F] = .ok (.movAX 0xF, []) ∧ decode [0x37, 0x3E] = .ok (.halt, []) ∧
    decode [0x40, 0x00] = .ok (.addAX 0, []) ∧ decode [0x47, 0xFF] = .ok (.timerXX 0xFF, []) ∧
    decode [0x50, 0x00] = .ok (.movR1R0XX 0 0, []) ∧ decode [0x6F, 0x0F] = .ok (.movR3R2XX 0xF 0xF, []) ∧
    decode [0x80, 0x00] = .ok (.jan 0 0, []) ∧ decode [0xFF, 0xFF] = .ok (.call 0xFFF, []) :=
  ⟨rfl, rfl, rfl, rfl, rfl, rfl, rfl, rfl, rfl, rfl, rfl, rfl⟩

/-- A state with nothing scheduled and one whose turn is scheduled; neither accepts an interrupt. -/
theorem witness_StepRunsDecodedInstruction :
    ({ atBoundary with ie := false, extf := true } : State).halted = false ∧
    ¬(({ atBoundary with ie := false, extf := true } : State).ie = true) ∧ atBoundary.schedule = [] ∧
    ({ atBoundary with schedule := [.processor, .intFalls] } : State).schedule = .processor :: [.intFalls] ∧
    decode [romRead atBoundary 0x123, romRead atBoundary (0x123 + 1)] = .ok (.nop, [0x00]) :=
  ⟨rfl, by decide, rfl, rfl, rfl⟩

theorem witness_PlacedWordIsRun : decodeTableWord 16 0x373E = some .halt ∧ decodeTableWord 8 0x2C = some .ei := by decide

theorem witness_InterruptEntry :
    ({ atBoundary with extf := true } : State).schedule = [] ∧ ({ atBoundary with extf := true } : State).halted = false ∧
    ({ atBoundary with extf := true } : State).ie = true ∧ ({ atBoundary with extf := true } : State).sub = .main ∧
    ({ atBoundary with extf := true } : State).extf = true ∧ atBoundary.extf = false ∧ ({ atBoundary with tf := true } : State).tf = true := by
  decide

theorem witness_IntEdgeLatchesRequest :
    ({ base with schedule := [.intFalls, .intFalls, .processor] } : State).schedule = List.replicate (1 + 1) .intFalls ++ [.processor] := rfl

/-- Pin PP1, unconnected with its pull-up resistor and its `WAKE` option, is pulled low. -/
def pulledLow : State :=
  { wakes with opts := { opts with wakePP := 0b0010, legal := rfl }, schedule := [.pinChange .pp 1 .low] }

/-- The falling pin of each kind; a pin that was low; a low pin released to its pull-up resistor; a running processor; a pin without
the option; a pin whose level is open. -/
theorem witness_PinEdges :
    (wakes.schedule = .pinChange .ps 2 .low :: [] ∧ wakes.halted = true ∧ (wakes.opts.wakeMask .ps).getLsbD (2 : Fin 4).val = true ∧
      knownLevel wakes .ps (getPin (portPins wakes .ps) 2) = some true ∧ knownLevel wakes .ps .low = some false) ∧
    (pulledLow.schedule = .pinChange .pp 1 .low :: [] ∧ (pulledLow.opts.wakeMask .pp).getLsbD (1 : Fin 4).val = true ∧
      getPin (portPins pulledLow .pp) 1 = .floating ∧ knownLevel pulledLow .pp .floating = some true) ∧
    knownLevel wakes .ps (getPin (portPins wakes .ps) 0) = some false ∧ base.halted = false ∧
    (wakes.opts.wakeMask .ps).getLsbD (0 : Fin 4).val = false ∧ knownLevel wakes .pm .floating = none := by decide

theorem test_pulled_low_wakes : see (step pulledLow) (fun t => (t.halted, t.extf)) = some (false, true) := by decide

theorem witness_TimerTicks :
    ({ base with schedule := [.timerClock, .timerClock], ton := true } : State).schedule = List.replicate 2 .timerClock ++ [] ∧
    ({ base with ton := true } : State).ton = true ∧ base.halted = false ∧ optsExt.tmrSrc = .ext ∧ optsExt.extTmrInHalt = .counts ∧
    base.ton = false ∧ wakes.halted = true ∧ wakes.opts.tmrSrc ≠ .ext := by decide

theorem witness_ResetPulse : ({ base with schedule := [.resetPulse] } : State).schedule = .resetPulse :: [] := rfl

theorem witness_ResetStateAndFirstFetch :
    decode [romRead { State.resetWith opts with rom := [(0x000, 0xE0), (0x001, 0x10)] } 0x000,
      romRead { State.resetWith opts with rom := [(0x000, 0xE0), (0x001, 0x10)] } 0x001] = .ok (.jmp 0x010, []) := rfl

/-- A halted machine in each kind of step: its own turn, a counting tick, a wake-up. -/
theorem witness_HaltKeepsState :
    wakes.halted = true ∧ (see (step wakes) pcOf).isSome = true ∧ eventNext wakes ≠ some .resetPulse ∧
    (see (step { wakes with schedule := [] }) pcOf).isSome = true ∧ eventNext { wakes with schedule := [] } = none ∧
    (see (step { wakes with opts := optsExt, ton := true, schedule := [.timerClock] }) (fun t => t.tmr)) = some 1 := by decide

/-- About to execute `HALT` at 040H, an edge of INT-bar due after it. -/
def halting : State :=
  { base with pc := 0x040, rom := [(0x040, 0x37), (0x041, 0x3E)], schedule := [.processor, .intFalls, .processor] }

/-- Each kind of edge; interrupts disabled with the timer's request pending, enabled in the main program, enabled in a subroutine. -/
theorem witness_WakeUpCases :
    (halting.schedule = .processor :: .intFalls :: .processor :: [] ∧ fallingEdge halting .intFalls = true ∧ halting.halted = false ∧
      decode (fetchWindow halting) = .ok (.halt, [])) ∧
    fallingEdge pulledLow (.pinChange .pp 1 .low) = true ∧ fallingEdge wakes (.pinChange .ps 2 .low) = true ∧
    ({ halting with tf := true } : State).ie = false ∧
    (({ halting with ie := true } : State).ie = true ∧ halting.sub = .main ∧ halting.extf = false ∧ halting.tf = false) ∧
    ({ halting with ie := true, sub := .called, tf := true } : State).sub ≠ .main :=
  ⟨⟨rfl, rfl, rfl, rfl⟩, by decide, by decide, rfl, ⟨rfl, rfl, rfl, rfl⟩, by decide⟩

theorem witness_BothRequestsServedInTurn :
    atBoundary.schedule = [] ∧ atBoundary.halted = false ∧ atBoundary.ie = true ∧ atBoundary.sub = .main ∧
    ({ atBoundary with extf := true, tf := true } : State).extf = true ∧ ({ atBoundary with extf := true, tf := true } : State).tf = true ∧
    decode [romRead { atBoundary with extf := true, tf := true } 0x008, romRead { atBoundary with extf := true, tf := true } 0x009] =
      .ok (.reti, [0x00]) :=
  ⟨rfl, rfl, rfl, rfl, rfl, rfl, rfl⟩

/-- A request held until the instruction with code `b` at 210H. -/
def held (b : Byte) (e : Bool) (m : SubMode) : State :=
  { base with pc := 0x210, extf := true, ie := e, sub := m, rom := [(0x210, b), (0x211, 0)] }

/-- The request of either source under each of the three. -/
theorem witness_HeldRequestServedAfterHoldEnds :
    ((held 0x2C false .main).schedule = [] ∧ (held 0x2C false .main).halted = false ∧ (held 0x2C false .main).extf = true ∧
      ({ held 0x2C false .main with extf := false, tf := true } : State).extf = false ∧
      ({ held 0x2C false .main with extf := false, tf := true } : State).tf = true) ∧
    decode (fetchWindow (held 0x2C false .main)) = .ok (.ei, [0]) ∧
    (held 0x2E true .called).sub ≠ .main ∧ decode (fetchWindow (held 0x2E true .called)) = .ok (.ret, [0]) ∧
    (held 0x2F true .isr).sub ≠ .main ∧ decode (fetchWindow (held 0x2F true .isr)) = .ok (.reti, [0]) :=
  ⟨⟨rfl, rfl, rfl, rfl, rfl⟩, rfl, by decide, rfl, by decide, rfl⟩

theorem witness_OnlyEiDiResetChangeIE :
    see (step (held 0x2C false .called)) (fun t => t.ie) = some true ∧ see (step (held 0x2D true .called)) (fun t => t.ie) = some false ∧
    see (step { held 0x2D true .called with schedule := [.resetPulse] }) (fun t => t.ie) = some false := by decide

theorem witness_TimerFlagWriters :
    see (step { base with ton := true, tmr := 0xFF, schedule := [.timerClock] }) (fun t => t.tf) = some true ∧
    see (step { atBoundary with tf := true }) (fun t => t.tf) = some false := by decide

theorem witness_OnlyMarkedInstructionsChangeCarry : see (exec .stc base) (fun t => t.cf) = some true ∧ base.cf = false := by decide

/-- Also for StepKeepsCanonicalMemory: a step of a state with both memories in canonical form that stores. -/
theorem witness_ProgramAndOptionsNeverChange :
    ({ aimed opts 7 0xF with acc := 5, dm := [(0x23, 1)], rom := [(0x100, 0x05), (0x101, 0)] } : State).wf = true ∧
    see (step { aimed opts 7 0xF with acc := 5, dm := [(0x23, 1)], rom := [(0x100, 0x05), (0x101, 0)] }) (fun t => t.dm) =
      some [(0x23, 1), (0x7F, 5)] := by decide

theorem witness_OnlyTransfersLeaveSequence :
    see (exec (.jmp 0x123) base) pcOf = some 0x123 ∧ (0x123 : RomAddr).toNat ≠ (base.pc.toNat + (Instr.jmp 0x123).byteLength) % 4096 := by
  decide

theorem witness_SoundNeverReachesTheRest :
    forgetSound { base with sndOn := true, sndCh := 7 } = forgetSound base ∧ ({ base with sndOn := true, sndCh := 7 } : State) ≠ base := by
  decide

/-- Each of the three faults is met by a step. -/
theorem witness_FaultsAreTheSpecsThree :
    faultOf (step { base with rom := [(0x100, 0x35), (0x101, 0)] }) = some (.undefinedEncoding 0x100) ∧
    faultOf (step { base with sub := .isr, rom := [(0x100, 0xF2), (0x101, 0)] }) = some .callInInterruptRoutine ∧
    faultOf (step { aimed opts 8 0 with rom := [(0x100, 0x04), (0x101, 0)] }) = some (.undefinedDataAddress 0x80) ∧
    faultOf (step { aimed optsA 0xA 0xF with rom := [(0x100, 0x06), (0x101, 0)] }) = some (.undefinedDataAddress 0xAF) := by decide

theorem witness_UndefinedEncodingStopsTheStep :
    processorsTurn base = true ∧ base.halted = false ∧ acceptedInterrupt base = none ∧
    decode [romRead { base with rom := [(0x100, 0x35), (0x101, 0)] } 0x100, romRead { base with rom := [(0x100, 0x35), (0x101, 0)] } (0x100 + 1)] =
      .error .undefinedFirstByte :=
  ⟨rfl, rfl, by decide, rfl⟩

theorem witness_PairLoads : base.opts.immFirst = .high ∧ ({ opts with immFirst := .low, legal := rfl } : Configuration).immFirst = .low := by decide

theorem witness_PortTransfers :
    getPin (portPins pinned .pm) 1 = .high ∧ getPin (portPins pinned .pm) 0 = .low ∧ getPin (portPins base .pp) 3 = .floating ∧
    base.opts.pullUp .pp = true := by decide

theorem witness_CallResult : base.sub ≠ .isr ∧ ({ base with sub := .isr } : State).sub = .isr := by decide

/-- Also for TimerNibbleWrites: a stopped timer, and a running external one. -/
theorem witness_TimerReads :
    base.ton = false ∧ ({ base with ton := true } : State).opts.tmrSrc ≠ .ext ∧
    ({ base with ton := true, opts := optsExt } : State).ton = true ∧ ({ base with ton := true, opts := optsExt } : State).opts.tmrSrc = .ext := by
  decide

theorem witness_SoundResults : ({ base with schedule := [.soundEnds] } : State).schedule = .soundEnds :: [] := rfl

end Sys2Proof.Tests
end

section
/-! PROOFS for the family 10_state.md. What any instruction and any event can do to the flags, the program counter and the
memories is said once (`exec_frame`, the `fireEvent` lemmas); the rules of the whole machine follow through `step_next_cases`. -/

namespace Sys2Proof.Machine

/-! ### What an instruction can change -/

/-- `IE` after an instruction (R32). -/
def ieAfter : Instr → Bool → Bool
  | .ei, _ => true
  | .di, _ => false
  | _, ie => ie

/-- `TF` after an instruction (R29, R225). -/
def tfAfter : Instr → Bool → Bool
  | .jtmr _, _ => false
  | _, tf => tf

/-- The instructions marked in the CF column, and `RETI` (R28). -/
def marksCarry : Instr → Bool
  | .addAM | .adcAM | .subAM | .sbcAM | .addAX _ | .subAX _ | .daa => true
  | .rlA | .rlcA | .rrA | .rrcA | .clc | .stc | .reti => true
  | _ => false

/-- The jumps, the call and the returns (R25). -/
def transfersControl : Instr → Bool
  | .jmp _ | .call _ | .ret | .reti => true
  | .jc _ | .jnc _ | .jtmr _ | .jzA _ | .jnzA _ | .jnzR0 _ | .jnzR1 _ | .jnzR4 _ | .jan _ _ => true
  | _ => false

/-- Data memory after an instruction: as before, or with one nibble stored in a populated cell (R64, R65). -/
inductive DataEffect (s t : State) : Prop where
  | kept (h : t.dm = s.dm)
  | stored (a : DataAddr) (v : Nibble) (ha : populated s.opts.device a = true)
      (h : t.dm = Memory.store s.dm a.toNat ((0 : Nibble) ++ v))

/-- What instruction `i` can have done to options, memories, flags and program counter when it leads from `s` to `t`. -/
structure ExecFrame (i : Instr) (s t : State) : Prop where
  opts : t.opts = s.opts
  rom : t.rom = s.rom
  ie : t.ie = ieAfter i s.ie
  tf : t.tf = tfAfter i s.tf
  cf : marksCarry i = false → t.cf = s.cf
  pc : transfersControl i = false → t.pc = s.pc + BitVec.ofNat 12 i.byteLength
  data : DataEffect s t

/-- Both answers of a timer nibble read put a nibble in `ACC`, and the open one draws it. -/
theorem readTimer_next {s t : State} {v : Nibble} (h : readTimer s v = .next t) :
    t = setAcc (drawn s) 1 (freeBits s 4) ∨ t = setAcc s 1 v := by
  unfold readTimer at h
  split at h
  · exact .inl (Host.Outcome.next.inj h).symm
  · exact .inr (Host.Outcome.next.inj h).symm

/-- A call that answers a next state was made outside an interrupt routine (R240, R323). -/
theorem execCall_next {s t : State} {addr : RomAddr} (h : execCall addr s = .next t) :
    s.sub ≠ .isr ∧ t = { s with stkPc := s.pc + 2, sub := .called, pc := addr } := by
  unfold execCall at h
  split at h
  · cases h
  · rename_i hs; exact ⟨by simp [hs], (Host.Outcome.next.inj h).symm⟩
  · rename_i hs; exact ⟨by simp [hs], (Host.Outcome.next.inj h).symm⟩

/-- Every instruction that answers a next state keeps to its frame. -/
theorem exec_frame {i : Instr} {s t : State} (h : exec i s = .next t) : ExecFrame i s t := by
  cases i with
  -- Reads of a data cell into `ACC`.
  | movAM10 | movAM32 | andAM | xorAM | orAM =>
    unfold exec at h
    obtain ⟨-, h⟩ := readCell_next_iff.mp h
    obtain rfl := Host.Outcome.next.inj h
    exact ⟨rfl, rfl, rfl, rfl, fun _ => rfl, fun _ => rfl, .kept rfl⟩
  | readR4A | readFR4A =>
    obtain ⟨-, rfl⟩ := tableToR4_next_iff.mp h
    exact ⟨rfl, rfl, rfl, rfl, fun _ => rfl, fun _ => rfl, .kept rfl⟩
  -- Arithmetic on a data cell, which gives `CF` too.
  | adcAM | addAM | sbcAM | subAM =>
    unfold exec at h
    obtain ⟨-, h⟩ := readCell_next_iff.mp h
    obtain rfl := Host.Outcome.next.inj h
    exact ⟨rfl, rfl, rfl, rfl, nofun, fun _ => rfl, .kept rfl⟩
  -- Stores.
  | movM10A | movM32A | readMR0A | readFMR0A =>
    obtain ⟨ha, rfl⟩ := writeCell_next_iff.mp h
    exact ⟨rfl, rfl, rfl, rfl, fun _ => rfl, fun _ => rfl, .stored _ _ ha rfl⟩
  | incM10 | decM10 | incM32 | decM32 | andMA | xorMA | orMA =>
    unfold exec at h
    obtain ⟨ha, rfl⟩ := updateCell_next_iff.mp h
    exact ⟨rfl, rfl, rfl, rfl, fun _ => rfl, fun _ => rfl, .stored _ _ ha rfl⟩
  -- The other instructions that give `CF` and go on in sequence.
  | rrA | rlA | rrcA | rlcA | daa | addAX x | subAX x | clc | stc =>
    obtain rfl := Host.Outcome.next.inj h
    exact ⟨rfl, rfl, rfl, rfl, nofun, fun _ => rfl, .kept rfl⟩
  | movATmrl | movATmrh =>
    rcases readTimer_next h with rfl | rfl
    · exact ⟨rfl, rfl, rfl, rfl, fun _ => rfl, fun _ => rfl, .kept rfl⟩
    · exact ⟨rfl, rfl, rfl, rfl, fun _ => rfl, fun _ => rfl, .kept rfl⟩
  -- Transfers of control.
  | jan n addr | jnzR0 addr | jnzR1 addr | jzA addr | jnzA addr | jc addr | jnc addr | jnzR4 addr =>
    obtain rfl := Host.Outcome.next.inj h
    exact ⟨branchIf_opts .., branchIf_rom .., branchIf_ie .., branchIf_tf .., fun _ => branchIf_cf .., nofun,
      .kept (branchIf_dm ..)⟩
  | jtmr addr =>
    obtain rfl := Host.Outcome.next.inj h
    exact ⟨branchIf_opts .., branchIf_rom .., branchIf_ie .., rfl, fun _ => branchIf_cf .., nofun,
      .kept (branchIf_dm ..)⟩
  | jmp addr | ret =>
    obtain rfl := Host.Outcome.next.inj h
    exact ⟨rfl, rfl, rfl, rfl, fun _ => rfl, nofun, .kept rfl⟩
  | reti =>
    obtain rfl := Host.Outcome.next.inj h
    exact ⟨rfl, rfl, rfl, rfl, nofun, nofun, .kept rfl⟩
  | call addr =>
    obtain ⟨-, rfl⟩ := execCall_next h
    exact ⟨rfl, rfl, rfl, rfl, fun _ => rfl, nofun, .kept rfl⟩
  -- Everything else goes on in sequence without a data access and keeps `CF`.
  | _ =>
    obtain rfl := Host.Outcome.next.inj h
    exact ⟨rfl, rfl, rfl, rfl, fun _ => rfl, fun _ => rfl, .kept rfl⟩

/-- `ieAfter` differs from `IE` before only for `EI` and `DI`. -/
theorem ieAfter_ne {i : Instr} {ie : Bool} (h : ieAfter i ie ≠ ie) :
    (i = .ei ∧ ieAfter i ie = true) ∨ (i = .di ∧ ieAfter i ie = false) := by
  unfold ieAfter at h ⊢
  split
  · exact .inl ⟨rfl, rfl⟩
  · exact .inr ⟨rfl, rfl⟩
  · simp_all

/-- No instruction sets `TF`, and only `JTMR` clears it. -/
theorem tfAfter_ne {i : Instr} {tf : Bool} (h : tfAfter i tf ≠ tf) :
    tf = true ∧ tfAfter i tf = false ∧ ∃ addr, i = .jtmr addr := by
  unfold tfAfter at h ⊢
  split
  · exact ⟨by simpa using h, rfl, _, rfl⟩
  · simp_all

/-! ### What an event can change -/

@[simp] theorem performReset_opts (s : State) : (performReset s).opts = s.opts := rfl
@[simp] theorem performReset_rom (s : State) : (performReset s).rom = s.rom := rfl
@[simp] theorem performReset_ie (s : State) : (performReset s).ie = false := rfl
@[simp] theorem performReset_tf (s : State) : (performReset s).tf = false := rfl
@[simp] theorem performReset_dm (s : State) : (performReset s).dm = [] := rfl

/-- Everything a rising edge of the timer clock can do (R334). -/
theorem timerTick_cases (s : State) :
    (timerCounts s = true ∧ s.tmr = 0xFF ∧ timerTick s = { s with tmr := 0x00, tf := true }) ∨
    (timerCounts s = true ∧ s.tmr ≠ 0xFF ∧ timerTick s = { s with tmr := s.tmr + 1 }) ∨
    (timerCounts s = false ∧ timerTick s = s) := by
  unfold timerTick
  split_ifs with hc ht
  · exact .inl ⟨hc, ht, rfl⟩
  · exact .inr (.inl ⟨hc, ht, rfl⟩)
  · exact .inr (.inr ⟨by simpa using hc, rfl⟩)

/-- A timer that counts is switched on (R31). -/
theorem ton_of_timerCounts {s : State} (h : timerCounts s = true) : s.ton = true := by
  simp only [timerCounts, Bool.and_eq_true] at h
  exact h.1

/-- A tick changes `TF` only by setting it, when the running timer steps from FFH to 00H. -/
theorem timerTick_tf_ne {s : State} (h : (timerTick s).tf ≠ s.tf) :
    (timerTick s).tf = true ∧ s.ton = true ∧ s.tmr = 0xFF ∧ (timerTick s).tmr = 0x00 := by
  rcases timerTick_cases s with ⟨hc, ht, he⟩ | ⟨-, -, he⟩ | ⟨-, he⟩
  · rw [he]; exact ⟨rfl, ton_of_timerCounts hc, ht, rfl⟩
  · rw [he] at h; exact absurd rfl h
  · rw [he] at h; exact absurd rfl h

section
variable (e : EnvEvent) (s : State)

@[simp] theorem fireEvent_opts : (fireEvent e s).opts = s.opts := by
  cases e <;> simp [fireEvent]

@[simp] theorem fireEvent_rom : (fireEvent e s).rom = s.rom := by
  cases e <;> simp [fireEvent]

/-- Of the events only a reset touches data memory: it leaves every cell unwritten (R362). -/
@[simp] theorem fireEvent_dm : (fireEvent e s).dm = if e = .resetPulse then [] else s.dm := by
  cases e <;> simp [fireEvent]

/-- Of the events only a reset touches `IE` (R361). -/
@[simp] theorem fireEvent_ie : (fireEvent e s).ie = if e = .resetPulse then false else s.ie := by
  cases e <;> simp [fireEvent]

end

/-- An event that changes `TF` is the tick that sets it or the reset that clears it. -/
theorem fireEvent_tf_ne {e : EnvEvent} {s : State} (h : (fireEvent e s).tf ≠ s.tf) :
    (e = .timerClock ∧ (fireEvent e s).tf = true ∧ s.ton = true ∧ s.tmr = 0xFF ∧ (fireEvent e s).tmr = 0x00) ∨
    (e = .resetPulse ∧ (fireEvent e s).tf = false) := by
  cases e with
  | timerClock => exact .inl ⟨rfl, timerTick_tf_ne h⟩
  | resetPulse => exact .inr ⟨rfl, rfl⟩
  | processor | intFalls => exact absurd rfl h
  | pinChange p i d => exact absurd (pinChange_tf s p i d) h
  | soundEnds => exact absurd (soundEnds_tf s) h

/-! ### Interrupt enable and timer flag -/

/-- Settles O18: interrupt entry keeps `IE`; an instruction changes it by `ieAfter`, an event only by a reset. -/
theorem onlyEiDiResetChangeIE : Obligations.OnlyEiDiResetChangeIE := by
  intro s t h hne
  rcases step_next_cases h with
    ⟨-, -, ⟨-, rfl⟩ | ⟨src, -, rfl⟩ | ⟨i, hi, -, hx⟩⟩ | ⟨e, -, he, -, rfl⟩
  · exact absurd rfl hne
  · exact absurd (enterInterrupt_ie _ src) hne
  · have hie := (exec_frame hx).ie
    rw [hie] at hne
    rw [hi, hie]
    rcases ieAfter_ne hne with ⟨rfl, ht⟩ | ⟨rfl, ht⟩
    · exact .inl ⟨rfl, ht⟩
    · exact .inr (.inl ⟨rfl, ht⟩)
  · have hr : e = .resetPulse := by
      by_contra hr
      exact hne (by simp [hr])
    subst hr
    exact .inr (.inr ⟨he, rfl⟩)

/-- Everything behind a step that changes `TF`. -/
theorem step_tf_ne {s t : State} (h : step s = .next t) (hne : t.tf ≠ s.tf) :
    (t.tf = true ∧ eventNext s = some .timerClock ∧ s.ton = true ∧ s.tmr = 0xFF ∧ t.tmr = 0x00) ∨
    (t.tf = false ∧
      (entersNext s = some .timer ∨ (∃ addr, executesNext s = some (.jtmr addr)) ∨ eventNext s = some .resetPulse)) := by
  rcases step_next_cases h with
    ⟨-, -, ⟨-, rfl⟩ | ⟨src, hsrc, rfl⟩ | ⟨i, hi, -, hx⟩⟩ | ⟨e, -, he, -, rfl⟩
  · exact absurd rfl hne
  · cases src with
    | external => exact absurd rfl hne
    | timer => exact .inr ⟨rfl, .inl hsrc⟩
  · have htf := (exec_frame hx).tf
    rw [htf] at hne
    obtain ⟨-, hf, addr, rfl⟩ := tfAfter_ne hne
    exact .inr ⟨htf.trans hf, .inr (.inl ⟨addr, hi⟩)⟩
  · rcases fireEvent_tf_ne hne with ⟨rfl, ht, hon, hff, h0⟩ | ⟨rfl, ht⟩
    · exact .inl ⟨ht, he, hon, hff, h0⟩
    · exact .inr ⟨ht, .inr (.inr he)⟩

/-- Settles O19: both halves read off what a step that changes `TF` can be. -/
theorem timerFlagWriters : Obligations.TimerFlagWriters := by
  intro s t h
  constructor
  · intro hs ht
    rcases step_tf_ne h (by simp [hs, ht]) with ⟨-, hset⟩ | ⟨hf, -⟩
    · exact hset
    · simp [ht] at hf
  · intro hs ht
    rcases step_tf_ne h (by simp [hs, ht]) with ⟨hf, -⟩ | ⟨-, hclear⟩
    · simp [ht] at hf
    · exact hclear

/-! ### The memories -/

/-- No step changes the options or the list of program bytes. -/
theorem step_opts_rom {s t : State} (h : step s = .next t) : t.opts = s.opts ∧ t.rom = s.rom := by
  rcases step_next_cases h with
    ⟨-, -, ⟨-, rfl⟩ | ⟨src, -, rfl⟩ | ⟨i, -, -, hx⟩⟩ | ⟨e, -, -, -, rfl⟩
  · exact ⟨rfl, rfl⟩
  · exact ⟨enterInterrupt_opts .., enterInterrupt_rom ..⟩
  · exact ⟨(exec_frame hx).opts, (exec_frame hx).rom⟩
  · exact ⟨fireEvent_opts .., fireEvent_rom ..⟩

/-- Settles O21: a program byte is read from the list of program bytes, which no step changes. -/
theorem programAndOptionsNeverChange : Obligations.ProgramAndOptionsNeverChange := by
  intro s t h
  obtain ⟨ho, hr⟩ := step_opts_rom h
  exact ⟨ho, fun a => by simp only [romRead, hr]⟩

theorem State.wf_iff (s : State) : s.wf = true ↔ dataWf s.opts.device s.dm = true ∧ romWf s.rom = true := by
  simp [State.wf]

/-- An instruction's effect on data memory keeps the canonical form. -/
theorem DataEffect.dataWf {s t : State} (h : DataEffect s t) (hs : dataWf s.opts.device s.dm = true) :
    dataWf s.opts.device t.dm = true := by
  cases h with
  | kept h => rwa [h]
  | stored a v ha h => rw [h]; exact dataWf_store hs ha

/-- Every step keeps data memory's canonical form. -/
theorem step_dataWf {s t : State} (h : step s = .next t) (hs : dataWf s.opts.device s.dm = true) :
    dataWf s.opts.device t.dm = true := by
  rcases step_next_cases h with
    ⟨-, -, ⟨-, rfl⟩ | ⟨src, -, rfl⟩ | ⟨i, -, -, hx⟩⟩ | ⟨e, -, -, -, rfl⟩
  · exact hs
  · rwa [enterInterrupt_dm]
  · exact (exec_frame hx).data.dataWf hs
  · rw [fireEvent_dm]
    split
    · rfl
    · exact hs

/-- Settles O22: data memory by `step_dataWf`, program memory because no step changes it. -/
theorem stepKeepsCanonicalMemory : Obligations.StepKeepsCanonicalMemory := by
  intro s t hs h
  rw [State.wf_iff] at hs ⊢
  obtain ⟨hd, hr⟩ := hs
  obtain ⟨ho, hrom⟩ := step_opts_rom h
  rw [ho, hrom]
  exact ⟨step_dataWf h hd, hr⟩

/-- Settles O23. -/
theorem resetMemoryCanonical : Obligations.ResetMemoryCanonical :=
  fun o => (State.wf_iff _).mpr (resetWith_memories_wf o)

/-- Settles O29: the ranges are `populated_iff`, the numbers are counted. -/
theorem dataMemoryMap : Obligations.DataMemoryMap :=
  ⟨populated_iff .ht44300, populated_iff .ht443A0, by rfl, by rfl, by rfl, by rfl⟩

/-! ### Carry flag and sequence -/

/-- Settles O20: an instruction outside the CF column keeps `CF`, by its frame. -/
theorem onlyMarkedInstructionsChangeCarry : Obligations.OnlyMarkedInstructionsChangeCarry := by
  intro i s t h hne
  have hm : marksCarry i = true := by
    by_contra hm
    exact hne ((exec_frame h).cf (by simpa using hm))
  unfold marksCarry at hm
  split at hm <;> simp at hm ⊢

/-- `PC` after an instruction that goes on in sequence, as a number (R25, D3). -/
theorem exec_pc_toNat {i : Instr} {s t : State} (h : exec i s = .next t) (hi : transfersControl i = false) :
    t.pc.toNat = (s.pc.toNat + i.byteLength) % 4096 := by
  rw [(exec_frame h).pc hi]
  simp [BitVec.toNat_add, BitVec.toNat_ofNat]

/-- Settles O24: an instruction that is no transfer of control goes on in sequence, by its frame. -/
theorem onlyTransfersLeaveSequence : Obligations.OnlyTransfersLeaveSequence := by
  intro i s t h hne
  have hi : transfersControl i = true := by
    by_contra hi
    exact hne (exec_pc_toNat h (by simpa using hi))
  unfold transfersControl at hi
  split at hi <;> simp at hi ⊢

/-! ### Accesses in the gap -/

/-- A table read to R4 takes its low address nibble from the cell at `P10`, and faults in the gap with the read. -/
theorem tableToR4_gap {s : State} {page : Nibble} (hg : populated s.opts.device (p10 s) = false) :
    tableToR4 page s = .fault (.undefinedDataAddress (p10 s)) := readCell_gap hg

/-- An access through `P10` into the gap faults before anything is written. -/
theorem exec_p10_gap {i : Instr} {s : State} (hi : usesP10 i = true) (hg : populated s.opts.device (p10 s) = false) :
    exec i s = .fault (.undefinedDataAddress (p10 s)) := by
  cases i with
  | adcAM | addAM | sbcAM | subAM | andAM | xorAM | orAM | movAM10 => unfold exec; exact readCell_gap hg
  | readR4A | readFR4A => exact tableToR4_gap hg
  | andMA | xorMA | orMA | incM10 | decM10 => unfold exec; exact updateCell_gap hg
  | movM10A | readMR0A | readFMR0A => exact writeCell_gap hg
  | _ => exact nomatch hi

/-- An access through `P32` into the gap faults before anything is written. -/
theorem exec_p32_gap {i : Instr} {s : State} (hi : usesP32 i = true) (hg : populated s.opts.device (p32 s) = false) :
    exec i s = .fault (.undefinedDataAddress (p32 s)) := by
  cases i with
  | movAM32 => unfold exec; exact readCell_gap hg
  | incM32 | decM32 => unfold exec; exact updateCell_gap hg
  | movM32A => exact writeCell_gap hg
  | _ => exact nomatch hi

/-- Settles O27. -/
theorem gapAccessFaults : Obligations.GapAccessFaults :=
  fun _ _ => ⟨exec_p10_gap, exec_p32_gap⟩

/-! ### The display -/

/-- A cell reads as last written, every other cell as before (R64). -/
theorem cellValue_setCell (s : State) (a b : DataAddr) (v : Nibble) :
    cellValue (setCell s a v) b = if b = a then v else cellValue s b := by
  simp only [cellValue, setCell_dm, setCell_ramEpoch, Memory.lookup_store, BitVec.toNat_inj]
  split_ifs with h
  · exact loNibble_append 0 v
  · rfl

/-- What the LCD driver reads after a store to one cell of a running machine. -/
theorem displayImage_setCell {u : State} (hu : u.halted = false) (a : DataAddr) (v : Nibble) :
    displayImage (setCell u a v) =
      some ((displayAddrs u.opts.device).map fun b => if b = a then v else cellValue u b) := by
  simp only [displayImage, setCell_halted, hu, setCell_opts, Bool.false_eq_true, if_false]
  congr 2
  funext b
  exact cellValue_setCell u a b v

/-- Adding 15 modulo 16 takes one away (R165). -/
theorem decNibble_eq (v : Nibble) : decNibble v = v - 1 := by
  simp only [decNibble]; bv_omega

/-- What the driver shows after a store of `v` to `a` that leaves the other cells as they are in `s`. -/
def ShowsStore (i : Instr) (s : State) (a : DataAddr) (v : Nibble) : Prop :=
  ∃ t, exec i s = .next t ∧
    displayImage t = some ((displayAddrs s.opts.device).map fun b => if b = a then v else cellValue s b)

/-- An instruction that only advances, touches `ACC` and stores to one cell shows its store. -/
theorem showsStore_of_exec {i : Instr} {s : State} {a : DataAddr} {v acc : Nibble} (hs : s.halted = false)
    (hx : exec i s = .next (setCell { advance s 1 with acc := acc } a v)) : ShowsStore i s a v :=
  ⟨_, hx, displayImage_setCell (u := { advance s 1 with acc := acc }) hs a v⟩

/-- Settles O31: on a display cell, which is populated, each of the eleven instructions is a store to that cell alone. -/
theorem displayShowsStores : Obligations.DisplayShowsStores := by
  intro s hs e he hd
  change ShowsStore e.1 s e.2.1 e.2.2
  have hp := populated_of_displayArea hd
  simp only [List.mem_cons, List.not_mem_nil, or_false] at he
  rcases he with rfl | rfl | rfl | rfl | rfl | rfl | rfl | rfl | rfl | rfl | rfl
  · exact showsStore_of_exec hs (writeCell_populated hp)
  · exact showsStore_of_exec hs (writeCell_populated hp)
  · exact showsStore_of_exec hs (updateCell_populated (f := (· &&& s.acc)) hp)
  · exact showsStore_of_exec hs (updateCell_populated (f := (· ||| s.acc)) hp)
  · exact showsStore_of_exec hs (updateCell_populated (f := (· ^^^ s.acc)) hp)
  · exact showsStore_of_exec hs (updateCell_populated (f := incNibble) hp)
  · rw [← decNibble_eq]
    exact showsStore_of_exec hs (updateCell_populated hp)
  · exact showsStore_of_exec hs (updateCell_populated (f := incNibble) hp)
  · rw [← decNibble_eq]
    exact showsStore_of_exec hs (updateCell_populated hp)
  · exact showsStore_of_exec hs (writeCell_populated hp)
  · exact showsStore_of_exec hs (writeCell_populated hp)

end Sys2Proof.Machine
end

section
/-! PROOFS for the family 20_memory.md. What placing program bytes does to each program address is said once
(`romRead_placeProgramBytes`), and with it what the next fetch reads. -/

namespace Sys2Proof.Machine

/-! ### Data cells -/

/-- Settles O30: read after write on the list that holds the cells. -/
theorem cellReadsLastWrite : Obligations.CellReadsLastWrite := cellValue_setCell

/-! ### Bytes placed at the fetch -/

@[simp] theorem placeProgramBytes_pc (s : State) (bytes : List Byte) : (placeProgramBytes s bytes).pc = s.pc := rfl

/-- A program address reads as placed, every other address as before (R61). -/
theorem romRead_placeProgramBytes (s : State) (bytes : List Byte) (a : RomAddr) :
    romRead (placeProgramBytes s bytes) a =
      if a = s.pc + 1 then bytes.getD 1 0 else if a = s.pc then bytes.getD 0 0 else romRead s a := by
  simp only [romRead, placeProgramBytes, Memory.lookup_store, BitVec.toNat_inj]
  split_ifs <;> rfl

/-- The fetch reads the two bytes placed: the address after `PC` is another one, also where the counter wraps (R62, D3). -/
theorem fetchWindow_placeProgramBytes (s : State) (bytes : List Byte) :
    fetchWindow (placeProgramBytes s bytes) = [bytes.getD 0 0, bytes.getD 1 0] := by
  have hne : s.pc ≠ s.pc + 1 := by bv_omega
  simp only [fetchWindow, placeProgramBytes_pc, romRead_placeProgramBytes, if_neg hne, if_true]

/-- A table word stands for two bytes, whatever its width. -/
theorem tableBytes_pair (nbits w : Nat) :
    [(tableBytes nbits w).getD 0 0, (tableBytes nbits w).getD 1 0] = tableBytes nbits w := by
  unfold tableBytes
  split <;> rfl

/-- The next fetch reads the bytes of the word placed there. -/
theorem fetchWindow_withFetchWord (s : State) (nbits w : Nat) :
    fetchWindow (s.withFetchWord nbits w) = tableBytes nbits w :=
  (fetchWindow_placeProgramBytes _ _).trans (tableBytes_pair nbits w)

/-- A word that decodes is machine code of that instruction. -/
theorem decodeTableWord_eq_some_iff {nbits w : Nat} {i : Instr} :
    decodeTableWord nbits w = some i ↔ ∃ rest, decode (tableBytes nbits w) = .ok (i, rest) := by
  unfold decodeTableWord
  cases decode (tableBytes nbits w) with
  | ok p => obtain ⟨j, r⟩ := p; simp
  | error e => simp

/-- No interrupt goes before the instruction of a processor made ready: a request that would be accepted is not there. -/
theorem acceptedInterrupt_readyToExecute (s : State) : acceptedInterrupt (readyToExecute s) = none := by
  rw [acceptedInterrupt_none_iff]
  rintro ⟨-, hie, hsub, hreq⟩
  have hheld : s.ie = true ∧ s.sub = .main := ⟨hie, hsub⟩
  simp [readyToExecute, hheld] at hreq

/-- With the word placed, the step is fetch and execution, whatever was scheduled, pending or halted before. -/
theorem step_withFetchWord (s : State) (nbits w : Nat) :
    step (s.withFetchWord nbits w) = runInstruction (s.withFetchWord nbits w) :=
  calc step (s.withFetchWord nbits w)
      = processorStep (s.withFetchWord nbits w) := step_of_empty rfl
    _ = runInstruction (s.withFetchWord nbits w) :=
        processorStep_of_none rfl (acceptedInterrupt_readyToExecute s)

/-- Settles O7: the step is fetch and execution, and the fetch reads the word's bytes. -/
theorem placedWordIsRun : Obligations.PlacedWordIsRun := by
  intro s nbits w i hw
  obtain ⟨rest, hd⟩ := decodeTableWord_eq_some_iff.mp hw
  rw [step_withFetchWord]
  rw [← fetchWindow_withFetchWord s] at hd
  exact runInstruction_of_ok hd

end Sys2Proof.Machine
end

section
/-! PROOFS for the family 30_encoding.md. The first byte alone fixes the format (`firstByte_cases`); each format has one
equation for the decoder, and the encoder puts the fields of two bytes back into them. Both round trips follow format by
format. -/

namespace Sys2Proof.Machine

/-! ### The fields of a byte -/

/-- A high nibble as a number. -/
theorem hiNibble_eq_iff (b : Byte) (n : Nibble) : hiNibble b = n ↔ b.toNat / 16 = n.toNat := by
  rw [← BitVec.toNat_inj, toNat_hiNibble]

/-- The first byte of `HALT` as a number (R101). -/
theorem eq_0x37_iff (b : Byte) : b = 0x37 ↔ b.toNat = 0x37 := BitVec.toNat_inj.symm

/-- J11: the opcode bits as a number (R100). -/
theorem toNat_opcode5 (b : Byte) : (b.extractLsb' 3 5).toNat = b.toNat / 8 := by
  have hlt := b.isLt
  simp only [BitVec.extractLsb'_toNat, Nat.shiftRight_eq_div_pow]
  omega

/-- The opcode nibble of a first byte put together from it. -/
theorem toNat_nibbles_div (op x : Nibble) : (op ++ x).toNat / 16 = op.toNat := by
  rw [← toNat_hiNibble, hiNibble_append]

/-- J11: the opcode bits of a first byte put together from them (R100). -/
theorem toNat_opcode5_div (op : BitVec 5) (x : BitVec 3) : (op ++ x).toNat / 8 = op.toNat := by
  rw [← toNat_opcode5, BitVec.extractLsb'_append_eq_left]

/-- J11: the opcode bits of `JAn` are 100, then the two bits of `n` (R100). -/
theorem toNat_janOpcode (n : BitVec 2) : ((0b100 : BitVec 3) ++ n).toNat = 0b10000 + n.toNat := by
  rw [BitVec.toNat_append, ← Nat.shiftLeft_add_eq_or_of_lt n.isLt]
  rfl

/-- J11: the two bytes an address is cut into hold that address (R100). -/
theorem jump11_append (op : BitVec 5) (addr : BitVec 11) :
    jump11 (op ++ addr.extractLsb' 8 3) (addr.extractLsb' 0 8) = addr := by
  rw [jump11, BitVec.extractLsb'_append_eq_right]
  exact BitVec.extractLsb'_append_extractLsb'

/-- J11: the fields of two bytes spell these bytes (R100). -/
theorem encodeJ11_fields (b0 b1 : Byte) : encodeJ11 (b0.extractLsb' 3 5) (jump11 b0 b1) = [b0, b1] := by
  rw [encodeJ11, jump11, BitVec.extractLsb'_append_eq_left, BitVec.extractLsb'_append_eq_right]
  exact congrArg (fun b => [b, b1]) BitVec.extractLsb'_append_extractLsb'

/-- J12: the two parts an address is cut into make that address (R99). -/
theorem address12_append (addr : RomAddr) : addr.extractLsb' 8 4 ++ addr.extractLsb' 0 8 = addr :=
  BitVec.extractLsb'_append_extractLsb'

/-- J12: the fields of two bytes spell these bytes (R99). -/
theorem encodeJ12_fields (b0 b1 : Byte) : encodeJ12 (hiNibble b0) (loNibble b0 ++ b1) = [b0, b1] := by
  rw [encodeJ12, BitVec.extractLsb'_append_eq_left, BitVec.extractLsb'_append_eq_right, nibbles_append]

/-- X4: a second byte with a zero pad is spelt by its low nibble (R96). -/
theorem encodeX4_fields (b0 : Byte) {b1 : Byte} (hpad : hiNibble b1 = 0) : encodeX4 b0 (loNibble b1) = [b0, b1] := by
  rw [encodeX4, ← hpad, nibbles_append]

/-- P8: two bytes with a zero pad are spelt by their nibbles (R98). -/
theorem encodeP8_fields (b0 : Byte) {b1 : Byte} (hpad : hiNibble b1 = 0) :
    encodeP8 (hiNibble b0) (loNibble b0) (loNibble b1) = [b0, b1] := by
  rw [encodeP8, ← hpad, nibbles_append, nibbles_append]

/-! ### Instructions of one byte -/

/-- The places of the opcode table that hold no one-byte instruction (R103, R105). -/
theorem opcodeMap_eq_none_iff (n : Nat) :
    opcodeMap.getD n none = none ↔ n = 0x35 ∨ n = 0x37 ∨ (0x40 ≤ n ∧ n ≤ 0x47) ∨ 0x50 ≤ n := by
  by_cases hn : n < 0x50
  · revert n
    decide
  · have hend : opcodeMap.getD n none = none := List.getD_eq_default _ _ (Nat.le_of_not_lt hn)
    simp only [hend, true_iff]
    omega

/-- Each instruction of the opcode table is spelt by its place in the table. -/
theorem encode_of_opcodeMap {n : Nat} {i : Instr} (h : opcodeMap.getD n none = some i) :
    encode i = [BitVec.ofNat 8 n] := by
  have table : ∀ n < 0x50, ∀ i ∈ opcodeMap.getD n none, encode i = [BitVec.ofNat 8 n] := by decide
  by_cases hn : n < 0x50
  · exact table n hn i h
  · rw [(opcodeMap_eq_none_iff n).mpr (by omega)] at h
    cases h

/-- A byte that is a whole instruction is its machine code (R93 to R95). -/
theorem encode_of_decodeOneByte {b0 : Byte} {i : Instr} (h : decodeOneByte b0 = some i) : encode i = [b0] := by
  unfold decodeOneByte at h
  split at h
  · next h7 =>
    obtain rfl := Option.some.inj h
    rw [encode, ← h7, nibbles_append]
  · simpa using encode_of_opcodeMap h

/-- The first bytes that are no whole instruction (R91, R105). -/
theorem decodeOneByte_eq_none_iff (b0 : Byte) :
    decodeOneByte b0 = none ↔
      b0.toNat = 0x35 ∨ b0.toNat = 0x37 ∨ (0x40 ≤ b0.toNat ∧ b0.toNat ≤ 0x47) ∨
        (0x50 ≤ b0.toNat ∧ b0.toNat ≤ 0x6F) ∨ 0x80 ≤ b0.toNat := by
  unfold decodeOneByte
  split
  · next h7 =>
    replace h7 : b0.toNat / 16 = 7 := (hiNibble_eq_iff b0 7).mp h7
    simp only [reduceCtorEq, false_iff]
    omega
  · next h7 =>
    replace h7 : ¬b0.toNat / 16 = 7 := (hiNibble_eq_iff b0 7).not.mp h7
    rw [opcodeMap_eq_none_iff]
    omega

/-! ### Formats of two bytes -/

/-- The format a first byte fixes, where it fixes one of two bytes (R91, R92, R103). -/
inductive TwoByteFormat (b0 : Byte) : Prop where
  | h16 (h : b0.toNat = 0x37)
  | x8 (h : b0.toNat = 0x47)
  | x4 (hlo : 0x40 ≤ b0.toNat) (hhi : b0.toNat ≤ 0x46)
  | p8R1R0 (h : b0.toNat / 16 = 5)
  | p8R3R2 (h : b0.toNat / 16 = 6)
  | j11 (hlo : 0x80 ≤ b0.toNat) (hhi : b0.toNat ≤ 0xDF)
  | j12Jmp (h : b0.toNat / 16 = 14)
  | j12Call (h : b0.toNat / 16 = 15)

/-- The first bytes of the two-byte formats, as ranges (R91). -/
theorem twoByteFormat_iff_range (b0 : Byte) :
    TwoByteFormat b0 ↔
      b0.toNat = 0x37 ∨ (0x40 ≤ b0.toNat ∧ b0.toNat ≤ 0x47) ∨ (0x50 ≤ b0.toNat ∧ b0.toNat ≤ 0x6F) ∨
        0x80 ≤ b0.toNat := by
  have hlt := b0.isLt
  constructor
  · intro h
    cases h <;> omega
  · rintro (h | ⟨hlo, hhi⟩ | ⟨hlo, hhi⟩ | h)
    · exact .h16 h
    · by_cases hx : b0.toNat = 0x47
      · exact .x8 hx
      · exact .x4 hlo (by omega)
    · by_cases hx : b0.toNat / 16 = 5
      · exact .p8R1R0 hx
      · exact .p8R3R2 (by omega)
    · by_cases hj : b0.toNat ≤ 0xDF
      · exact .j11 h hj
      · by_cases hx : b0.toNat / 16 = 14
        · exact .j12Jmp hx
        · exact .j12Call (by omega)

/-- The first bytes that need a second one: neither a whole instruction nor undefined (R91, R105). -/
theorem twoByteFormat_iff (b0 : Byte) : TwoByteFormat b0 ↔ decodeOneByte b0 = none ∧ b0 ≠ 0x35 := by
  have h35 : b0 = 0x35 ↔ b0.toNat = 0x35 := BitVec.toNat_inj.symm
  rw [twoByteFormat_iff_range, decodeOneByte_eq_none_iff, ne_eq, h35]
  omega

/-! ### What the decoder reads in each format -/

section
variable {b0 : Byte} (b1 : Byte)

/-- H16, `HALT`: one second byte only (R101, D6). -/
theorem decodeTwoByte_h16 (h : b0.toNat = 0x37) :
    decodeTwoByte b0 b1 = if b1 = 0x3E then .ok .halt else .error .undefinedSecondByte := by
  simp only [decodeTwoByte, toNat_hiNibble, h]

/-- X4 and X8: first bytes 40H to 47H (R96, R97). -/
theorem decodeTwoByte_x (hlo : 0x40 ≤ b0.toNat) (hhi : b0.toNat ≤ 0x47) :
    decodeTwoByte b0 b1 = decodeImmediate b0 b1 := by
  have h : b0.toNat / 16 = 4 := by omega
  simp only [decodeTwoByte, toNat_hiNibble, h]

/-- X8: every second byte is an immediate (R97). -/
theorem decodeTwoByte_x8 (h : b0.toNat = 0x47) : decodeTwoByte b0 b1 = .ok (.timerXX b1) := by
  have hb0 : b0 = 0x47 := BitVec.eq_of_toNat_eq h
  rw [decodeTwoByte_x b1 (by omega) (by omega), decodeImmediate, if_pos hb0]

/-- P8, `MOV R1R0,XXH` (R98). -/
theorem decodeTwoByte_p8R1R0 (h : b0.toNat / 16 = 5) :
    decodeTwoByte b0 b1 =
      if hiNibble b1 = 0 then .ok (.movR1R0XX (loNibble b0) (loNibble b1)) else .error .nonzeroPad := by
  simp only [decodeTwoByte, toNat_hiNibble, h]

/-- P8, `MOV R3R2,XXH` (R98). -/
theorem decodeTwoByte_p8R3R2 (h : b0.toNat / 16 = 6) :
    decodeTwoByte b0 b1 =
      if hiNibble b1 = 0 then .ok (.movR3R2XX (loNibble b0) (loNibble b1)) else .error .nonzeroPad := by
  simp only [decodeTwoByte, toNat_hiNibble, h]

/-- J11: first bytes 80H to DFH (R100). -/
theorem decodeTwoByte_j11 (hlo : 0x80 ≤ b0.toNat) (hhi : b0.toNat ≤ 0xDF) :
    decodeTwoByte b0 b1 = .ok (decodeConditional b0 b1) := by
  simp only [decodeTwoByte, toNat_hiNibble]
  split
  case h_7 => rfl
  all_goals omega

/-- J12, `JMP` (R99). -/
theorem decodeTwoByte_j12Jmp (h : b0.toNat / 16 = 14) : decodeTwoByte b0 b1 = .ok (.jmp (loNibble b0 ++ b1)) := by
  simp only [decodeTwoByte, toNat_hiNibble, h]

/-- J12, `CALL` (R99). -/
theorem decodeTwoByte_j12Call (h : b0.toNat / 16 = 15) : decodeTwoByte b0 b1 = .ok (.call (loNibble b0 ++ b1)) := by
  simp only [decodeTwoByte, toNat_hiNibble, h]

/-- J11: below the opcode bits of the other eight jumps stand those of `JAn` (R100, R103). -/
theorem decodeConditional_jan (h : b0.toNat / 8 < 0b10100) :
    decodeConditional b0 b1 = .jan (b0.extractLsb' 3 2) (jump11 b0 b1) := by
  simp only [decodeConditional, toNat_opcode5]
  split
  case h_9 => rfl
  all_goals omega

end

/-- J11: an opcode and an address are written as the two bytes they are the fields of (R100). -/
theorem encodeJ11_of_opcode {b0 b1 : Byte} {op : BitVec 5} (h : b0.toNat / 8 = op.toNat) :
    encodeJ11 op (jump11 b0 b1) = [b0, b1] := by
  have hop : op = b0.extractLsb' 3 5 := BitVec.eq_of_toNat_eq (by rw [toNat_opcode5, h])
  rw [hop, encodeJ11_fields]

/-- What J11 decodes to is spelt by the two bytes (R100). -/
theorem encode_decodeConditional {b0 : Byte} (b1 : Byte) (hlo : 0x80 ≤ b0.toNat) (hhi : b0.toNat ≤ 0xDF) :
    encode (decodeConditional b0 b1) = [b0, b1] := by
  by_cases hjan : b0.toNat / 8 < 0b10100
  · have hn : (b0.extractLsb' 3 2).toNat = b0.toNat / 8 % 4 := by
      rw [BitVec.extractLsb'_toNat, Nat.shiftRight_eq_div_pow]
    rw [decodeConditional_jan b1 hjan]
    refine encodeJ11_of_opcode ?_
    rw [toNat_janOpcode, hn]
    omega
  · obtain h | h | h | h | h | h | h | h : b0.toNat / 8 = 0b10100 ∨ b0.toNat / 8 = 0b10101 ∨ b0.toNat / 8 = 0b10110 ∨
        b0.toNat / 8 = 0b10111 ∨ b0.toNat / 8 = 0b11000 ∨ b0.toNat / 8 = 0b11001 ∨ b0.toNat / 8 = 0b11010 ∨
        b0.toNat / 8 = 0b11011 := by omega
    all_goals
      simp only [decodeConditional, toNat_opcode5, h]
      exact encodeJ11_of_opcode h

/-- X4: each of the seven first bytes selects an instruction, and the pad decides whether there is one (R96, D6). -/
theorem decodeTwoByte_x4 {b0 : Byte} (b1 : Byte) (hlo : 0x40 ≤ b0.toNat) (hhi : b0.toNat ≤ 0x46) :
    ∃ i, decodeTwoByte b0 b1 = (if hiNibble b1 = 0 then .ok i else .error .nonzeroPad) ∧
      encode i = encodeX4 b0 (loNibble b1) := by
  rw [decodeTwoByte_x b1 hlo (by omega)]
  obtain rfl | rfl | rfl | rfl | rfl | rfl | rfl :
      b0 = 0x40 ∨ b0 = 0x41 ∨ b0 = 0x42 ∨ b0 = 0x43 ∨ b0 = 0x44 ∨ b0 = 0x45 ∨ b0 = 0x46 := by
    bv_omega
  all_goals
    rw [decodeImmediate, if_neg (by decide), ite_not]
    exact ⟨_, rfl, rfl⟩

/-! ### What the decoder answers in a format of two bytes -/

/-- The second bytes that make no instruction with a first byte that needs one (R105, D6). -/
def SecondByteUndefined (b0 b1 : Byte) : Prop :=
  ((0x40 ≤ b0.toNat ∧ b0.toNat ≤ 0x46) ∨ (0x50 ≤ b0.toNat ∧ b0.toNat ≤ 0x6F)) ∧ 16 ≤ b1.toNat
    ∨ b0 = 0x37 ∧ b1 ≠ 0x3E

/-- What the decoder answers on two bytes: an instruction that they spell, or none exactly at the second bytes of R105. -/
def AnsweredAsSpelt (b0 b1 : Byte) : Prop :=
  (¬SecondByteUndefined b0 b1 ∧ ∃ i, decodeTwoByte b0 b1 = .ok i ∧ encode i = [b0, b1]) ∨
  (SecondByteUndefined b0 b1 ∧ ∃ e, decodeTwoByte b0 b1 = .error e)

/-- In the formats without an undefined second byte, X8, J11 and J12, there is always an instruction. -/
theorem answeredAsSpelt_of_ok {b0 b1 : Byte} {i : Instr} (hb0 : b0.toNat = 0x47 ∨ 0x80 ≤ b0.toNat)
    (hd : decodeTwoByte b0 b1 = .ok i) (henc : encode i = [b0, b1]) : AnsweredAsSpelt b0 b1 := by
  refine .inl ⟨?_, i, hd, henc⟩
  rw [SecondByteUndefined, eq_0x37_iff]
  omega

/-- In the formats with a pad, X4 and P8, the pad decides. -/
theorem answeredAsSpelt_of_pad {b0 b1 : Byte} {i : Instr}
    (hb0 : (0x40 ≤ b0.toNat ∧ b0.toNat ≤ 0x46) ∨ (0x50 ≤ b0.toNat ∧ b0.toNat ≤ 0x6F))
    (hd : decodeTwoByte b0 b1 = if hiNibble b1 = 0 then .ok i else .error .nonzeroPad)
    (henc : hiNibble b1 = 0 → encode i = [b0, b1]) : AnsweredAsSpelt b0 b1 := by
  by_cases hpad : hiNibble b1 = 0
  · have hlow : b1.toNat / 16 = 0 := (hiNibble_eq_iff b1 0).mp hpad
    refine .inl ⟨?_, i, hd.trans (if_pos hpad), henc hpad⟩
    rw [SecondByteUndefined, eq_0x37_iff]
    omega
  · have hhigh : ¬b1.toNat / 16 = 0 := (hiNibble_eq_iff b1 0).not.mp hpad
    exact .inr ⟨.inl ⟨hb0, by omega⟩, _, hd.trans (if_neg hpad)⟩

/-- Every format of two bytes is answered as R105 says. -/
theorem answeredAsSpelt_of_format {b0 : Byte} (b1 : Byte) (hf : TwoByteFormat b0) : AnsweredAsSpelt b0 b1 := by
  cases hf with
  | h16 h =>
    have hb0 := (eq_0x37_iff b0).mpr h
    by_cases h3E : b1 = 0x3E
    · subst hb0 h3E
      exact .inl ⟨by simp [SecondByteUndefined], .halt, rfl, rfl⟩
    · exact .inr ⟨.inr ⟨hb0, h3E⟩, _, (decodeTwoByte_h16 b1 h).trans (if_neg h3E)⟩
  | x8 h =>
    have hb0 : b0 = 0x47 := BitVec.eq_of_toNat_eq h
    exact answeredAsSpelt_of_ok (by omega) (decodeTwoByte_x8 b1 h) (by rw [encode, hb0])
  | x4 hlo hhi =>
    obtain ⟨i, hd, henc⟩ := decodeTwoByte_x4 b1 hlo hhi
    exact answeredAsSpelt_of_pad (by omega) hd fun hpad => henc.trans (encodeX4_fields b0 hpad)
  | p8R1R0 h =>
    have hop : hiNibble b0 = 5 := (hiNibble_eq_iff b0 _).mpr h
    exact answeredAsSpelt_of_pad (by omega) (decodeTwoByte_p8R1R0 b1 h) fun hpad => by
      rw [encode, ← hop, encodeP8_fields b0 hpad]
  | p8R3R2 h =>
    have hop : hiNibble b0 = 6 := (hiNibble_eq_iff b0 _).mpr h
    exact answeredAsSpelt_of_pad (by omega) (decodeTwoByte_p8R3R2 b1 h) fun hpad => by
      rw [encode, ← hop, encodeP8_fields b0 hpad]
  | j11 hlo hhi =>
    exact answeredAsSpelt_of_ok (.inr hlo) (decodeTwoByte_j11 b1 hlo hhi) (encode_decodeConditional b1 hlo hhi)
  | j12Jmp h =>
    have hop : hiNibble b0 = 0b1110 := (hiNibble_eq_iff b0 _).mpr h
    exact answeredAsSpelt_of_ok (by omega) (decodeTwoByte_j12Jmp b1 h) (by rw [encode, ← hop, encodeJ12_fields])
  | j12Call h =>
    have hop : hiNibble b0 = 0b1111 := (hiNibble_eq_iff b0 _).mpr h
    exact answeredAsSpelt_of_ok (by omega) (decodeTwoByte_j12Call b1 h) (by rw [encode, ← hop, encodeJ12_fields])

/-- In a format of two bytes, what decodes is spelt by the two bytes. -/
theorem encode_of_decodeTwoByte {b0 b1 : Byte} {i : Instr} (hf : TwoByteFormat b0) (h : decodeTwoByte b0 b1 = .ok i) :
    encode i = [b0, b1] := by
  rcases answeredAsSpelt_of_format b1 hf with ⟨-, j, hj, henc⟩ | ⟨-, e, he⟩
  · obtain rfl := Except.ok.inj (h.symm.trans hj)
    exact henc
  · cases h.symm.trans he

/-! ### The decoder on any bytes -/

/-- A whole first byte decodes, and everything after it is left (R91). -/
theorem decode_of_oneByte {b0 : Byte} {i : Instr} (rest : List Byte) (h : decodeOneByte b0 = some i) :
    decode (b0 :: rest) = .ok (i, rest) := by
  simp only [decode, h]

/-- First byte 35H is no instruction, whatever follows (R105). -/
theorem decode_undefinedFirstByte (rest : List Byte) : decode (0x35 :: rest) = .error .undefinedFirstByte := rfl

/-- The second byte of a format of two cannot be missing. -/
theorem decode_truncated {b0 : Byte} (hf : TwoByteFormat b0) : decode [b0] = .error .truncated := by
  obtain ⟨hnone, h35⟩ := (twoByteFormat_iff b0).mp hf
  simp only [decode, hnone, if_neg h35]

/-- A format of two bytes reads two and leaves everything after them (R91). -/
theorem decode_of_twoByteFormat {b0 : Byte} (b1 : Byte) (rest : List Byte) (hf : TwoByteFormat b0) :
    decode (b0 :: b1 :: rest) = (decodeTwoByte b0 b1).map (·, rest) := by
  obtain ⟨hnone, h35⟩ := (twoByteFormat_iff b0).mp hf
  simp only [decode, hnone, if_neg h35]
  cases decodeTwoByte b0 b1 <;> rfl

/-- Every first byte is a whole instruction, or 35H, or in a format of two bytes. -/
theorem firstByte_cases (b0 : Byte) : (∃ i, decodeOneByte b0 = some i) ∨ b0 = 0x35 ∨ TwoByteFormat b0 := by
  cases h1 : decodeOneByte b0 with
  | some i => exact .inl ⟨i, rfl⟩
  | none =>
    by_cases h35 : b0 = 0x35
    · exact .inr (.inl h35)
    · exact .inr (.inr ((twoByteFormat_iff b0).mpr ⟨h1, h35⟩))

/-- Bytes that decode begin with a whole instruction of one byte, or with two bytes in a format of two; the rest is left. -/
theorem decode_ok_cases {b0 : Byte} {more rest : List Byte} {i : Instr} (h : decode (b0 :: more) = .ok (i, rest)) :
    (decodeOneByte b0 = some i ∧ more = rest) ∨
    (TwoByteFormat b0 ∧ ∃ b1, more = b1 :: rest ∧ decodeTwoByte b0 b1 = .ok i) := by
  rcases firstByte_cases b0 with ⟨j, hj⟩ | rfl | hf
  · rw [decode_of_oneByte more hj] at h
    cases h
    exact .inl ⟨hj, rfl⟩
  · rw [decode_undefinedFirstByte] at h
    cases h
  · cases more with
    | nil =>
      rw [decode_truncated hf] at h
      cases h
    | cons b1 more =>
      rw [decode_of_twoByteFormat b1 more hf] at h
      cases hd : decodeTwoByte b0 b1 with
      | error e =>
        rw [hd] at h
        cases h
      | ok j =>
        rw [hd] at h
        cases h
        exact .inr ⟨hf, b1, rfl, hd⟩

/-! ### The statements about bytes -/

/-- Settles O2: whatever decodes was read from one byte or from two, and these spell the instruction. -/
theorem encodeDecodeRoundTrip : Obligations.EncodeDecodeRoundTrip := by
  intro bytes i rest h
  cases bytes with
  | nil => cases h
  | cons b0 more =>
    rcases decode_ok_cases h with ⟨h1, rfl⟩ | ⟨hf, b1, rfl, h2⟩
    · rw [encode_of_decodeOneByte h1]
      rfl
    · rw [encode_of_decodeTwoByte hf h2]
      rfl

/-- Settles O4: the first byte says whether a second one is read, and the instruction is as long as the bytes read. -/
theorem lengthFromFirstByte : Obligations.LengthFromFirstByte := by
  intro b0 more rest i h
  simp only [Instr.byteLength, ne_eq, eq_0x37_iff]
  rcases decode_ok_cases h with ⟨h1, -⟩ | ⟨hf, b1, -, h2⟩
  · have hone : ¬decodeOneByte b0 = none := by simp [h1]
    rw [decodeOneByte_eq_none_iff] at hone
    rw [encode_of_decodeOneByte h1, if_pos (by omega)]
    rfl
  · have htwo := (twoByteFormat_iff_range b0).mp hf
    rw [encode_of_decodeTwoByte hf h2, if_neg (by omega)]
    rfl

/-- A first byte with undefined second bytes is no whole instruction. -/
theorem SecondByteUndefined.decodeOneByte {b0 b1 : Byte} (h : SecondByteUndefined b0 b1) : decodeOneByte b0 = none := by
  rw [SecondByteUndefined, eq_0x37_iff] at h
  rw [decodeOneByte_eq_none_iff]
  omega

/-- Settles O3: no window that begins with a whole instruction, every one that begins with 35H, and in the formats of two
bytes those that `answeredAsSpelt_of_format` names. -/
theorem undefinedEncodingsExactly : Obligations.UndefinedEncodingsExactly := by
  intro b0 b1
  change _ ↔ b0 = 0x35 ∨ SecondByteUndefined b0 b1
  rcases firstByte_cases b0 with ⟨i, hi⟩ | rfl | hf
  · rw [decode_of_oneByte [b1] hi]
    refine iff_of_false nofun ?_
    rintro (rfl | hu)
    · cases hi
    · cases hi.symm.trans hu.decodeOneByte
  · exact iff_of_true ⟨_, decode_undefinedFirstByte [b1]⟩ (.inl rfl)
  · obtain ⟨-, h35⟩ := (twoByteFormat_iff b0).mp hf
    rw [decode_of_twoByteFormat b1 [] hf]
    rcases answeredAsSpelt_of_format b1 hf with ⟨hu, i, hi, -⟩ | ⟨hu, e, he⟩
    · rw [hi]
      exact iff_of_false nofun (not_or.mpr ⟨h35, hu⟩)
    · rw [he]
      exact iff_of_true ⟨e, rfl⟩ (.inr hu)

/-- Settles O5: the decoder run on each word. -/
theorem specWordsDecode : Obligations.SpecWordsDecode :=
  ⟨rfl, rfl, rfl, rfl, rfl, rfl, rfl, rfl, rfl, rfl, rfl⟩

/-! ### Encoded instructions decode -/

/-- Two bytes of a format of two that hold an instruction decode to it, whatever follows. -/
theorem decode_of_decodeTwoByte {b0 b1 : Byte} {i : Instr} (rest : List Byte) (hf : TwoByteFormat b0)
    (h : decodeTwoByte b0 b1 = .ok i) : decode ([b0, b1] ++ rest) = .ok (i, rest) := by
  rw [List.cons_append, List.cons_append, List.nil_append, decode_of_twoByteFormat b1 rest hf, h]
  rfl

/-- X4: a code written with its zero pad decodes to what its first byte selects (R96). -/
theorem decode_encodeX4 {b0 : Byte} {x : Nibble} {i : Instr} (rest : List Byte) (hlo : 0x40 ≤ b0.toNat)
    (hhi : b0.toNat ≤ 0x46) (h : decodeImmediate b0 ((0 : Nibble) ++ x) = .ok i) :
    decode (encodeX4 b0 x ++ rest) = .ok (i, rest) :=
  decode_of_decodeTwoByte rest (.x4 hlo hhi) ((decodeTwoByte_x _ hlo (by omega)).trans h)

/-- J11: a code written from five opcode bits of this format decodes to what they select (R100). -/
theorem decode_encodeJ11 {op : BitVec 5} {addr : BitVec 11} {i : Instr} (rest : List Byte) (hlo : 0b10000 ≤ op.toNat)
    (hhi : op.toNat ≤ 0b11011) (h : decodeConditional (op ++ addr.extractLsb' 8 3) (addr.extractLsb' 0 8) = i) :
    decode (encodeJ11 op addr ++ rest) = .ok (i, rest) := by
  have hop := toNat_opcode5_div op (addr.extractLsb' 8 3)
  have h80 : 0x80 ≤ (op ++ addr.extractLsb' 8 3).toNat := by omega
  have hDF : (op ++ addr.extractLsb' 8 3).toNat ≤ 0xDF := by omega
  exact decode_of_decodeTwoByte rest (.j11 h80 hDF) ((decodeTwoByte_j11 _ h80 hDF).trans (congrArg _ h))

/-- `JAn` decodes whatever its bit number and address (R100, R226). -/
theorem decode_encode_jan (n : BitVec 2) (addr : BitVec 11) (rest : List Byte) :
    decode (encode (.jan n addr) ++ rest) = .ok (.jan n addr, rest) := by
  have hlt := n.isLt
  have hop := toNat_janOpcode n
  refine decode_encodeJ11 rest (by omega) (by omega) ?_
  have hjan := toNat_opcode5_div ((0b100 : BitVec 3) ++ n) (addr.extractLsb' 8 3)
  have hn : (((0b100 : BitVec 3) ++ n) ++ addr.extractLsb' 8 3).extractLsb' 3 2 = n := by
    rw [BitVec.extractLsb'_append_eq_of_le (Nat.le_refl 3), BitVec.extractLsb'_append_eq_right]
  rw [decodeConditional_jan _ (by omega), hn, jump11_append]

/-- Settles O1, format by format: the decoder finds the format by the first byte and reads back the fields written there. -/
theorem decodeEncodeRoundTrip : Obligations.DecodeEncodeRoundTrip := by
  intro i rest
  cases i with
  | halt => exact decode_of_decodeTwoByte rest (.h16 rfl) rfl
  | timerXX xx => exact decode_of_decodeTwoByte rest (.x8 rfl) (decodeTwoByte_x8 xx rfl)
  | addAX x | subAX x | andAX x | xorAX x | orAX x | movR4X x | soundN x =>
    refine decode_encodeX4 rest (by decide) (by decide) ?_
    rw [decodeImmediate, if_neg (by decide), hiNibble_append, if_neg (by decide), loNibble_append]
    rfl
  | movR1R0XX first second =>
    have h5 := toNat_nibbles_div 0x5 first
    refine decode_of_decodeTwoByte rest (.p8R1R0 h5) ?_
    rw [decodeTwoByte_p8R1R0 _ h5, if_pos (hiNibble_append 0 second), loNibble_append, loNibble_append]
  | movR3R2XX first second =>
    have h6 := toNat_nibbles_div 0x6 first
    refine decode_of_decodeTwoByte rest (.p8R3R2 h6) ?_
    rw [decodeTwoByte_p8R3R2 _ h6, if_pos (hiNibble_append 0 second), loNibble_append, loNibble_append]
  | movAX x =>
    refine decode_of_oneByte rest ?_
    rw [decodeOneByte, if_pos (hiNibble_append 0x7 x), loNibble_append]
  | jan n addr => exact decode_encode_jan n addr rest
  | jnzR0 addr | jnzR1 addr | jzA addr | jnzA addr | jc addr | jnc addr | jtmr addr | jnzR4 addr =>
    refine decode_encodeJ11 rest (by decide) (by decide) ?_
    rw [decodeConditional, BitVec.extractLsb'_append_eq_left, jump11_append]
    rfl
  | jmp addr =>
    have hE := toNat_nibbles_div 0b1110 (addr.extractLsb' 8 4)
    refine decode_of_decodeTwoByte rest (.j12Jmp hE) ?_
    rw [decodeTwoByte_j12Jmp _ hE, loNibble_append, address12_append]
  | call addr =>
    have hF := toNat_nibbles_div 0b1111 (addr.extractLsb' 8 4)
    refine decode_of_decodeTwoByte rest (.j12Call hF) ?_
    rw [decodeTwoByte_j12Call _ hF, loNibble_append, address12_append]
  -- Every instruction of one byte without an operand stands in the opcode table.
  | _ => exact decode_of_oneByte rest rfl

/-! ### The step -/

/-- A turn of the processor, scheduled or not, is its step on the state with that turn taken off the schedule. -/
theorem step_of_processorsTurn {s : State} (h : processorsTurn s = true) :
    step s = processorStep { s with schedule := s.schedule.tail } := by
  rcases step_cases s with ⟨-, hs⟩ | ⟨e, q, he, hq, -⟩
  · exact hs
  · rw [processorsTurn, hq] at h
    cases e with
    | processor => exact absurd rfl he
    | _ => cases h

/-- The turn that fetches bytes which are no instruction (R105, D6). -/
theorem processorStep_of_undefined {s : State} {e : DecodeReject} (hh : s.halted = false) (ha : acceptedInterrupt s = none)
    (hd : decode (fetchWindow s) = .error e) : processorStep s = .fault (.undefinedEncoding s.pc) :=
  (processorStep_of_none hh ha).trans (runInstruction_of_error hd)

/-- Settles O28: the processor's turn, not halted and accepting nothing, is a fetch, and the fetch reads these two bytes. -/
theorem undefinedEncodingStopsTheStep : Obligations.UndefinedEncodingStopsTheStep := by
  intro s e hp hh ha hd
  rw [step_of_processorsTurn hp]
  exact processorStep_of_undefined (s := { s with schedule := s.schedule.tail }) hh ha hd

end Sys2Proof.Machine
end

section
/-! PROOFS for the family 40_arithmetic.md. Every instruction here leaves an ALU result in `ACC` and `CF` and nothing else
(`leaves_aluResult`); what remains is what the adder, the subtracter and the decimal adjust compute, said in numbers. -/

namespace Sys2Proof.Machine

/-! ### What an ALU result leaves unchanged -/

/-- An ALU result touches `PC`, `ACC` and `CF`, and no cell. -/
theorem setAccCarry_frame (s : State) (n : Nat) (r : AluResult) :
    setAccCarry s n r =
      { s with pc := s.pc + BitVec.ofNat 12 n, acc := (setAccCarry s n r).acc, cf := (setAccCarry s n r).cf } ∧
    KeepsCells s (setAccCarry s n r) :=
  ⟨rfl, fun _ => rfl⟩

/-- Of two ALU results, one after the other, the second stays. -/
theorem setAccCarry_setAccCarry (s : State) (m n : Nat) (q r : AluResult) :
    setAccCarry (setAccCarry s m q) n r = setAccCarry s (m + n) r := by
  simp only [setAccCarry, advance, BitVec.add_assoc, BitVec.ofNat_add]

/-- An outcome that only leaves an ALU result, with value and carry as numbers and its frame. -/
theorem leaves_aluResult {o : Result} {s : State} {n v : Nat} {c : Bool} {r : AluResult}
    (ho : o = .next (setAccCarry s n r)) (hv : r.value.toNat = v) (hc : r.carry = c) :
    ∃ t, o = .next t ∧ t.acc.toNat = v ∧ t.cf = c ∧
      t = { s with pc := s.pc + BitVec.ofNat 12 n, acc := t.acc, cf := t.cf } ∧ KeepsCells s t :=
  ⟨_, ho, hv, hc, setAccCarry_frame s n r⟩

/-! ### Addition and subtraction -/

section
variable {s : State} (hp : populated s.opts.device (p10 s) = true)
include hp

/-- R121 on a populated cell. -/
theorem exec_addAM : exec .addAM s = .next (setAccCarry s 1 (adder s.acc (cellValue s (p10 s)) false)) := by
  unfold exec execAddAM
  exact readCell_populated hp

/-- R122 on a populated cell. -/
theorem exec_adcAM : exec .adcAM s = .next (setAccCarry s 1 (adder s.acc (cellValue s (p10 s)) s.cf)) := by
  unfold exec execAdcAM
  exact readCell_populated hp

/-- R123 on a populated cell. -/
theorem exec_subAM : exec .subAM s = .next (setAccCarry s 1 (subtracter s.acc (cellValue s (p10 s)) true)) := by
  unfold exec execSubAM
  exact readCell_populated hp

/-- R124 on a populated cell. -/
theorem exec_sbcAM : exec .sbcAM s = .next (setAccCarry s 1 (subtracter s.acc (cellValue s (p10 s)) s.cf)) := by
  unfold exec execSbcAM
  exact readCell_populated hp

end

/-- Adding the complement, as numbers (R120). -/
theorem subtracter_value (a b : Nibble) (c : Bool) :
    (subtracter a b c).value.toNat = (a.toNat + (15 - b.toNat) + c.toNat) % 16 := by
  rw [subtracter, adder_value, BitVec.toNat_not]

/-- The carry of a subtraction is 1 exactly when no borrow takes place: `a` holds `b` and the borrow still due (R120). -/
theorem subtracter_carry (a b : Nibble) (c : Bool) :
    (subtracter a b c).carry = decide (b.toNat + (1 - c.toNat) ≤ a.toNat) := by
  rw [subtracter, adder_carry, BitVec.toNat_not, decide_eq_decide]
  have hb := b.isLt
  have hc := c.toNat_le
  omega

/-- Settles O32: the two forms through `P10` and the immediate one are the adder, with carry in 0 but for `ADC`. -/
theorem additionResults : Obligations.AdditionResults := by
  intro s x
  refine ⟨fun hp => ⟨?add, ?adc⟩, ?immediate⟩
  case add => exact leaves_aluResult (exec_addAM hp) (adder_value _ _ false) (adder_carry _ _ false)
  case adc => exact leaves_aluResult (exec_adcAM hp) (adder_value _ _ _) (adder_carry _ _ _)
  case immediate => exact leaves_aluResult rfl (adder_value _ _ false) (adder_carry _ _ false)

/-- Settles O33: the two forms through `P10` and the immediate one are the subtracter, with carry in 1 (no borrow due)
but for `SBC`. -/
theorem subtractionResults : Obligations.SubtractionResults := by
  intro s x
  refine ⟨⟨rfl, rfl, rfl⟩, ⟨rfl, rfl, rfl⟩, fun hp => ⟨?sub, ?sbc⟩, ?immediate⟩
  case sub => exact leaves_aluResult (exec_subAM hp) (subtracter_value _ _ true) (subtracter_carry _ _ true)
  case sbc => exact leaves_aluResult (exec_sbcAM hp) (subtracter_value _ _ _) (subtracter_carry _ _ _)
  case immediate => exact leaves_aluResult rfl (subtracter_value _ _ true) (subtracter_carry _ _ true)

/-! ### Decimal adjust -/

/-- A value above 9, or one with a carry, is adjusted (R127). -/
theorem decimalAdjust_adjusts {a : Nibble} {c : Bool} (h : 9 < a.toNat ∨ c = true) :
    (decimalAdjust a c).value.toNat = (a.toNat + 6) % 16 ∧ (decimalAdjust a c).carry = true := by
  rw [decimalAdjust, if_pos h]
  exact ⟨BitVec.toNat_ofNat .., rfl⟩

/-- A decimal digit without a carry stays, and so does the carry (R127). -/
theorem decimalAdjust_keeps {a : Nibble} {c : Bool} (h : ¬(9 < a.toNat ∨ c = true)) : decimalAdjust a c = ⟨a, c⟩ :=
  if_neg h

/-- Settles O34, by the two branches of the decimal adjust. -/
theorem decimalAdjustResults : Obligations.DecimalAdjustResults := by
  intro s
  refine ⟨rfl, rfl, _, rfl, ?_, setAccCarry_frame s 1 (decimalAdjust s.acc s.cf)⟩
  split_ifs with h
  · exact decimalAdjust_adjusts h
  · rw [decimalAdjust_keeps h]
    exact ⟨rfl, rfl⟩

/-- The sum of two decimal digits and a carry needs the adjustment exactly when it is no decimal digit: from 10 to 15 by
its value, from 16 to 19 by its carry. -/
theorem adder_needsAdjust_iff {a b : Nibble} (c : Bool) (ha : a.toNat ≤ 9) (hb : b.toNat ≤ 9) :
    9 < (adder a b c).value.toNat ∨ (adder a b c).carry = true ↔ 10 ≤ a.toNat + b.toNat + c.toNat := by
  rw [adder_value, adder_carry, decide_eq_true_iff]
  have hc := c.toNat_le
  omega

/-- The decimal adjust of the sum of two decimal digits and a carry: the decimal digit and the decimal carry (R127). -/
theorem decimalAdjust_adder {a b : Nibble} (c : Bool) (ha : a.toNat ≤ 9) (hb : b.toNat ≤ 9) :
    (decimalAdjust (adder a b c).value (adder a b c).carry).value.toNat = (a.toNat + b.toNat + c.toNat) % 10 ∧
    (decimalAdjust (adder a b c).value (adder a b c).carry).carry = decide (10 ≤ a.toNat + b.toNat + c.toNat) := by
  have hc := c.toNat_le
  by_cases hten : 10 ≤ a.toNat + b.toNat + c.toNat
  · obtain ⟨hv, hcarry⟩ := decimalAdjust_adjusts ((adder_needsAdjust_iff c ha hb).mpr hten)
    rw [hv, hcarry, adder_value]
    exact ⟨by omega, (decide_eq_true hten).symm⟩
  · rw [decimalAdjust_keeps ((adder_needsAdjust_iff c ha hb).not.mpr hten), adder_value, adder_carry, decide_eq_decide]
    omega

/-- A sequence goes on from where its first instruction leads. -/
theorem runInstrs_cons_of_next {i : Instr} {s t : State} (rest : List Instr) (h : exec i s = .next t) :
    runInstrs (i :: rest) s = runInstrs rest t := by
  rw [runInstrs, h]

/-- `ADC` and `DAA` in sequence leave the decimal adjust of the sum. -/
theorem runInstrs_adc_daa {s : State} (hp : populated s.opts.device (p10 s) = true) :
    runInstrs [.adcAM, .daa] s =
      .next (setAccCarry s 2 (decimalAdjust (adder s.acc (cellValue s (p10 s)) s.cf).value
        (adder s.acc (cellValue s (p10 s)) s.cf).carry)) := by
  rw [runInstrs_cons_of_next _ (exec_adcAM hp), runInstrs_cons_of_next _ rfl]
  exact congrArg _ (setAccCarry_setAccCarry ..)

/-- Settles O35. -/
theorem decimalAdditionProperty : Obligations.DecimalAdditionProperty := by
  intro s hp ha hb
  obtain ⟨hvalue, hcarry⟩ := decimalAdjust_adder s.cf ha hb
  exact leaves_aluResult (runInstrs_adc_daa hp) hvalue hcarry

end Sys2Proof.Machine
end


section
/-! PROOFS for the family 41_logic.md. The nine instructions are one of three nibble operations, each of which works bit by
bit (`BitVec.getLsbD_and`, `_or`, `_xor`), with the result left in `ACC` (`leaves_logicInAcc`) or in the cell at `P10`
(`leaves_logicInCell`). -/

namespace Sys2Proof.Machine

/-! ### What a result in `ACC` or in a cell leaves unchanged -/

/-- A result in `ACC` touches `PC` and `ACC`, and no cell (R140). -/
theorem setAcc_frame (s : State) (n : Nat) (v : Nibble) :
    setAcc s n v = { s with pc := s.pc + BitVec.ofNat 12 n, acc := (setAcc s n v).acc } ∧ KeepsCells s (setAcc s n v) :=
  ⟨rfl, fun _ => rfl⟩

/-- A result in a cell touches `PC` and that cell (R64). -/
theorem setCell_advance_frame (s : State) (n : Nat) (a : DataAddr) (v : Nibble) :
    setCell (advance s n) a v =
      { s with pc := s.pc + BitVec.ofNat 12 n, dm := (setCell (advance s n) a v).dm } ∧
    KeepsCellsBut a s (setCell (advance s n) a v) :=
  ⟨rfl, fun b hb => (cellValue_setCell (advance s n) a b v).trans (if_neg hb)⟩

section
variable {o : Result} {s : State} {v m : Nibble} {op : Bool → Bool → Bool}

/-- An outcome that only leaves in `ACC` a value computed bit by bit from `ACC` and `m`, with its frame. -/
theorem leaves_logicInAcc {n : Nat} (ho : o = .next (setAcc s n v))
    (hv : ∀ k, v.getLsbD k = op (s.acc.getLsbD k) (m.getLsbD k)) :
    ∃ t, o = .next t ∧ (∀ k < 4, t.acc.getLsbD k = op (s.acc.getLsbD k) (m.getLsbD k)) ∧
      t = { s with pc := s.pc + BitVec.ofNat 12 n, acc := t.acc } ∧ KeepsCells s t :=
  ⟨_, ho, fun k _ => hv k, setAcc_frame s n v⟩

/-- An outcome that only leaves in the cell at `a` a value computed bit by bit from `m` and `ACC`, with its frame. -/
theorem leaves_logicInCell {a : DataAddr} (ho : o = .next (setCell (advance s 1) a v))
    (hv : ∀ k, v.getLsbD k = op (m.getLsbD k) (s.acc.getLsbD k)) :
    ∃ t, o = .next t ∧ (∀ k < 4, (cellValue t a).getLsbD k = op (m.getLsbD k) (s.acc.getLsbD k)) ∧
      t = { s with pc := s.pc + 1, dm := t.dm } ∧ KeepsCellsBut a s t := by
  refine ⟨_, ho, fun k _ => ?_, setCell_advance_frame s 1 a v⟩
  rw [cellValue_setCell, if_pos rfl, hv]

end

/-! ### The forms through `P10` -/

section
variable {s : State} (hp : populated s.opts.device (p10 s) = true)
include hp

/-- R141 on a populated cell. -/
theorem exec_andAM : exec .andAM s = .next (setAcc s 1 (s.acc &&& cellValue s (p10 s))) := by
  unfold exec execAndAM
  exact readCell_populated hp

/-- R142 on a populated cell. -/
theorem exec_orAM : exec .orAM s = .next (setAcc s 1 (s.acc ||| cellValue s (p10 s))) := by
  unfold exec execOrAM
  exact readCell_populated hp

/-- R143 on a populated cell. -/
theorem exec_xorAM : exec .xorAM s = .next (setAcc s 1 (s.acc ^^^ cellValue s (p10 s))) := by
  unfold exec execXorAM
  exact readCell_populated hp

/-- R144 on a populated cell. -/
theorem exec_andMA : exec .andMA s = .next (setCell (advance s 1) (p10 s) (cellValue s (p10 s) &&& s.acc)) := by
  unfold exec execAndMA
  exact updateCell_populated hp

/-- R145 on a populated cell. -/
theorem exec_orMA : exec .orMA s = .next (setCell (advance s 1) (p10 s) (cellValue s (p10 s) ||| s.acc)) := by
  unfold exec execOrMA
  exact updateCell_populated hp

/-- R146 on a populated cell. -/
theorem exec_xorMA : exec .xorMA s = .next (setCell (advance s 1) (p10 s) (cellValue s (p10 s) ^^^ s.acc)) := by
  unfold exec execXorMA
  exact updateCell_populated hp

end

/-! ### The obligations -/

/-- Settles O36: each form leaves its nibble operation on `ACC` and the cell, or the immediate, in `ACC`. -/
theorem logicToAccumulator : Obligations.LogicToAccumulator := by
  intro s x
  refine ⟨⟨rfl, rfl, rfl, rfl, rfl, rfl⟩, ?memory, ?immediate⟩
  case memory =>
    simp only [List.forall_mem_cons, List.not_mem_nil, false_imp_iff, implies_true, and_true]
    refine ⟨⟨rfl, fun hp => ?and⟩, ⟨rfl, fun hp => ?or⟩, ⟨rfl, fun hp => ?xor⟩⟩
    case and => exact leaves_logicInAcc (exec_andAM hp) fun _ => BitVec.getLsbD_and
    case or => exact leaves_logicInAcc (exec_orAM hp) fun _ => BitVec.getLsbD_or
    case xor => exact leaves_logicInAcc (exec_xorAM hp) fun _ => BitVec.getLsbD_xor
  case immediate =>
    simp only [List.forall_mem_cons, List.not_mem_nil, false_imp_iff, implies_true, and_true]
    refine ⟨⟨rfl, ?and⟩, ⟨rfl, ?or⟩, ⟨rfl, ?xor⟩⟩
    case and => exact leaves_logicInAcc rfl fun _ => BitVec.getLsbD_and
    case or => exact leaves_logicInAcc rfl fun _ => BitVec.getLsbD_or
    case xor => exact leaves_logicInAcc rfl fun _ => BitVec.getLsbD_xor

/-- Settles O37: each form leaves its nibble operation on the cell and `ACC` in the cell. -/
theorem logicToMemory : Obligations.LogicToMemory := by
  intro s
  refine ⟨⟨rfl, rfl, rfl⟩, ?_⟩
  simp only [List.forall_mem_cons, List.not_mem_nil, false_imp_iff, implies_true, and_true]
  refine ⟨⟨rfl, fun hp => ?and⟩, ⟨rfl, fun hp => ?or⟩, ⟨rfl, fun hp => ?xor⟩⟩
  case and => exact leaves_logicInCell (exec_andMA hp) fun _ => BitVec.getLsbD_and
  case or => exact leaves_logicInCell (exec_orMA hp) fun _ => BitVec.getLsbD_or
  case xor => exact leaves_logicInCell (exec_xorMA hp) fun _ => BitVec.getLsbD_xor

end Sys2Proof.Machine
end

section
/-! PROOFS for the family 42_incdec.md. All sixteen instructions apply one of two nibble functions, which in numbers add 1 or
15 modulo 16 (`toNat_incNibble`, `toNat_decNibble`), to one place: `ACC` (`setAcc_addsMod16`), a working register
(`updateReg_addsMod16`) or the cell at a pointer (`updateCell_addsMod16`). -/

namespace Sys2Proof.Machine

/-! ### The two nibble functions in numbers -/

/-- R161, R162: one up modulo 16. -/
theorem toNat_incNibble (v : Nibble) : (incNibble v).toNat = (v.toNat + 1) % 16 :=
  BitVec.toNat_add v 1

/-- R165, R166: one down modulo 16, as 15 up. -/
theorem toNat_decNibble (v : Nibble) : (decNibble v).toNat = (v.toNat + 15) % 16 :=
  BitVec.toNat_add v 15

/-! ### Writes to a working register -/

/-- A register reads what was last written to it, and a write to one register leaves the others (R23, R48). -/
theorem getReg_setReg (s : State) (r q : Reg) (v : Nibble) : getReg (setReg s r v) q = if r = q then v else getReg s q := by
  cases q with
  | r0 => exact setReg_r0 s r v
  | r1 => exact setReg_r1 s r v
  | r2 => exact setReg_r2 s r v
  | r3 => exact setReg_r3 s r v
  | r4 => exact setReg_r4 s r v

/-- Going on to the next instruction leaves the working registers. -/
theorem getReg_advance (s : State) (n : Nat) (q : Reg) : getReg (advance s n) q = getReg s q := by
  cases q <;> rfl

/-- A result in a working register touches `PC` and the working registers, and no cell; `getReg_setReg` says which of the
registers. -/
theorem setReg_advance_frame (s : State) (n : Nat) (r : Reg) (v : Nibble) :
    setReg (advance s n) r v =
      { s with
        pc := s.pc + BitVec.ofNat 12 n, r0 := (setReg (advance s n) r v).r0, r1 := (setReg (advance s n) r v).r1
        r2 := (setReg (advance s n) r v).r2, r3 := (setReg (advance s n) r v).r3, r4 := (setReg (advance s n) r v).r4 } ∧
    KeepsCells s (setReg (advance s n) r v) := by
  cases r <;> exact ⟨rfl, fun _ => rfl⟩

/-! ### A nibble function applied to one place -/

section
variable {f : Nibble → Nibble} {k : Nat} (s : State) (hf : ∀ v, (f v).toNat = (v.toNat + k) % 16)
include hf

/-- A function that adds `k` modulo 16, applied to `ACC`, does so to `ACC` alone. -/
theorem setAcc_addsMod16 {o : Result} (ho : o = .next (setAcc s 1 (f s.acc))) :
    ∃ t, o = .next t ∧ t.acc.toNat = (s.acc.toNat + k) % 16 ∧
      t = { s with pc := s.pc + 1, acc := t.acc } ∧ KeepsCells s t :=
  ⟨_, ho, hf s.acc, setAcc_frame s 1 (f s.acc)⟩

/-- A function that adds `k` modulo 16, applied to a working register, does so to that register alone: there is no carry
into another one (R160). -/
theorem updateReg_addsMod16 (r : Reg) :
    ∃ t, updateReg s r f = .next t ∧ (getReg t r).toNat = ((getReg s r).toNat + k) % 16 ∧
      (∀ q, q ≠ r → getReg t q = getReg s q) ∧
      t = { s with pc := s.pc + 1, r0 := t.r0, r1 := t.r1, r2 := t.r2, r3 := t.r3, r4 := t.r4 } ∧ KeepsCells s t := by
  refine ⟨_, rfl, ?written, fun q hq => ?kept, setReg_advance_frame s 1 r (f (getReg s r))⟩
  case written => rw [getReg_setReg, if_pos rfl, hf]
  case kept => rw [getReg_setReg, if_neg hq.symm, getReg_advance]

/-- A function that adds `k` modulo 16, applied to a populated cell, does so to that cell alone. -/
theorem updateCell_addsMod16 {a : DataAddr} (hp : populated s.opts.device a = true) :
    ∃ t, updateCell s a f = .next t ∧ (cellValue t a).toNat = ((cellValue s a).toNat + k) % 16 ∧
      t = { s with pc := s.pc + 1, dm := t.dm } ∧ KeepsCellsBut a s t := by
  refine ⟨_, updateCell_populated hp, ?_, setCell_advance_frame s 1 a (f (cellValue s a))⟩
  rw [cellValue_setCell, if_pos rfl, hf]

end

/-! ### The obligations -/

/-- Settles O38: each of the twelve forms is one of the two nibble functions applied to `ACC` or to one working register. -/
theorem incDecRegisters : Obligations.IncDecRegisters := by
  intro s
  refine ⟨⟨rfl, rfl, rfl, rfl⟩, setAcc_addsMod16 s toNat_incNibble rfl, setAcc_addsMod16 s toNat_decNibble rfl, ?registers⟩
  case registers =>
    have up := updateReg_addsMod16 s toNat_incNibble
    have down := updateReg_addsMod16 s toNat_decNibble
    simp only [List.forall_mem_cons, List.not_mem_nil, false_imp_iff, implies_true, and_true]
    exact ⟨⟨rfl, rfl, up .r0⟩, ⟨rfl, rfl, up .r1⟩, ⟨rfl, rfl, up .r2⟩, ⟨rfl, rfl, up .r3⟩, ⟨rfl, rfl, up .r4⟩,
      ⟨rfl, rfl, down .r0⟩, ⟨rfl, rfl, down .r1⟩, ⟨rfl, rfl, down .r2⟩, ⟨rfl, rfl, down .r3⟩, ⟨rfl, rfl, down .r4⟩⟩

/-- Settles O39: each of the four forms is one of the two nibble functions applied to the cell at `P10` or at `P32`. -/
theorem incDecMemory : Obligations.IncDecMemory := by
  intro s
  simp only [List.forall_mem_cons, List.not_mem_nil, false_imp_iff, implies_true, and_true]
  refine ⟨⟨rfl, rfl, ?incP10⟩, ⟨rfl, rfl, ?decP10⟩, ⟨rfl, rfl, ?incP32⟩, ⟨rfl, rfl, ?decP32⟩⟩
  case incP10 => exact updateCell_addsMod16 s toNat_incNibble
  case decP10 => exact updateCell_addsMod16 s toNat_decNibble
  case incP32 => exact updateCell_addsMod16 s toNat_incNibble
  case decP32 => exact updateCell_addsMod16 s toNat_decNibble

end Sys2Proof.Machine
end

section
/-! PROOFS for the family 43_datamove.md. A move through a pointer loads `ACC` from the addressed cell (`loadAcc_populated`) or
stores it there (`storeAcc_populated`); a move from a working register is one form for all five (`moveFromReg_next`); a pair
load splits an immediate whose nibble order the option `IMM8_FIRST_NIBBLE` gives (`pairImmediate_of_high`, `_of_low`). -/

namespace Sys2Proof.Machine

/-! ### Moves through a pointer -/

section
variable {s : State} {a : DataAddr} (hp : populated s.opts.device a = true)
include hp

/-- R183, R184: a load from a populated cell leaves its value in `ACC` and changes no cell. -/
theorem loadAcc_populated :
    ∃ t, readCell s a (fun m => .next (setAcc s 1 m)) = .next t ∧ t = { s with pc := s.pc + 1, acc := cellValue s a } ∧
      KeepsCells s t :=
  ⟨_, readCell_populated hp, setAcc_frame s 1 (cellValue s a)⟩

/-- R185, R186: a store to a populated cell leaves `ACC` in that cell and changes no other one. -/
theorem storeAcc_populated :
    ∃ t, writeCell (advance s 1) a s.acc = .next t ∧ cellValue t a = s.acc ∧ t = { s with pc := s.pc + 1, dm := t.dm } ∧
      KeepsCellsBut a s t := by
  refine ⟨_, writeCell_populated hp, ?_, setCell_advance_frame s 1 a s.acc⟩
  rw [cellValue_setCell, if_pos rfl]

end

/-- Settles O41: each load and each store is the same one through `P10` and through `P32`. -/
theorem memoryMoves : Obligations.MemoryMoves := by
  intro s
  simp only [List.forall_mem_cons, List.not_mem_nil, false_imp_iff, implies_true, and_true]
  refine ⟨⟨⟨rfl, rfl, ?loadP10⟩, ⟨rfl, rfl, ?loadP32⟩⟩, ⟨rfl, rfl, ?storeP10⟩, ⟨rfl, rfl, ?storeP32⟩⟩
  case loadP10 => exact loadAcc_populated
  case loadP32 => exact loadAcc_populated
  case storeP10 => exact storeAcc_populated
  case storeP32 => exact storeAcc_populated

/-! ### Moves between `ACC` and a working register -/

/-- R181: a move from any working register touches `PC` and `ACC` only. -/
theorem moveFromReg_next (s : State) (r : Reg) : moveFromReg s r = .next { s with pc := s.pc + 1, acc := getReg s r } := rfl

/-- Settles O40. A move to a working register is the record update of that register, so each of the five holds by the
definition of `setReg` (R182). -/
theorem registerMoves : Obligations.RegisterMoves := by
  intro s
  simp only [List.forall_mem_cons, List.not_mem_nil, false_imp_iff, implies_true, and_true]
  refine ⟨?fromReg, ⟨rfl, rfl, rfl, rfl, rfl⟩, ⟨rfl, rfl, rfl, rfl, rfl⟩, ?toReg⟩
  case fromReg =>
    have load := moveFromReg_next s
    exact ⟨⟨rfl, rfl, load .r0⟩, ⟨rfl, rfl, load .r1⟩, ⟨rfl, rfl, load .r2⟩, ⟨rfl, rfl, load .r3⟩, ⟨rfl, rfl, load .r4⟩⟩
  case toReg => exact ⟨rfl, rfl, rfl, rfl, rfl⟩

/-! ### Immediate loads -/

/-- Settles O42: codes, cycles and effects are the definitions' own. -/
theorem immediateLoads : Obligations.ImmediateLoads := by
  intro s x
  exact ⟨rfl, rfl, rfl, rfl, rfl, rfl⟩

section
variable {s : State} {f l : Nibble}

/-- R98, D2: with the option `high` the first byte's nibble is the high one. -/
theorem pairImmediate_of_high (ho : s.opts.immFirst = .high) : pairImmediate s.opts.immFirst f l = f ++ l := by
  rw [ho, pairImmediate]

/-- R98, D2: with the option `low` the first byte's nibble is the low one. -/
theorem pairImmediate_of_low (ho : s.opts.immFirst = .low) : pairImmediate s.opts.immFirst f l = l ++ f := by
  rw [ho, pairImmediate]

variable {hi lo : Nibble} (hxx : pairImmediate s.opts.immFirst f l = hi ++ lo)
include hxx

/-- R188 for an immediate given by its nibbles. -/
theorem exec_movR1R0XX : exec (.movR1R0XX f l) s = .next { s with pc := s.pc + 2, r1 := hi, r0 := lo } := by
  calc exec (.movR1R0XX f l) s
      = .next { s with
          pc := s.pc + 2, r1 := hiNibble (pairImmediate s.opts.immFirst f l)
          r0 := loNibble (pairImmediate s.opts.immFirst f l) } := rfl
    _ = .next { s with pc := s.pc + 2, r1 := hi, r0 := lo } := by rw [hxx, hiNibble_append, loNibble_append]

/-- R189 for an immediate given by its nibbles. -/
theorem exec_movR3R2XX : exec (.movR3R2XX f l) s = .next { s with pc := s.pc + 2, r3 := hi, r2 := lo } := by
  calc exec (.movR3R2XX f l) s
      = .next { s with
          pc := s.pc + 2, r3 := hiNibble (pairImmediate s.opts.immFirst f l)
          r2 := loNibble (pairImmediate s.opts.immFirst f l) } := rfl
    _ = .next { s with pc := s.pc + 2, r3 := hi, r2 := lo } := by rw [hxx, hiNibble_append, loNibble_append]

end

/-- Settles O43: the option decides which nibble of the immediate each byte gives, and both loads split that immediate. -/
theorem pairLoads : Obligations.PairLoads := by
  intro s f l
  refine ⟨fun ho => ?high, fun ho => ?low⟩
  case high => exact ⟨exec_movR1R0XX (pairImmediate_of_high ho), exec_movR3R2XX (pairImmediate_of_high ho)⟩
  case low => exact ⟨exec_movR1R0XX (pairImmediate_of_low ho), exec_movR3R2XX (pairImmediate_of_low ho)⟩

end Sys2Proof.Machine
end

section
/-! PROOFS for the family 44_rotate_io.md. The rotates and the port read each put four bits together (`nibbleOfBits`): one
equation per operation says which bits these are, in the form in which the spec writes it, and all statements are read off
those equations. A sequence of rotates is what its rotations do to `ACC` and `CF`, one after the other
(`runInstrs_of_rotates`). -/

namespace Sys2Proof.Machine

/-! ### A nibble and its bits -/

/-- The nibble whose bits 3 to 0 are these, in the order in which the spec writes them. -/
def nibbleOfBits (b3 b2 b1 b0 : Bool) : Nibble :=
  BitVec.ofBool b3 ++ BitVec.ofBool b2 ++ BitVec.ofBool b1 ++ BitVec.ofBool b0

section
variable (b3 b2 b1 b0 : Bool)

theorem getLsbD_nibbleOfBits_zero : (nibbleOfBits b3 b2 b1 b0).getLsbD 0 = b0 := by
  revert b3 b2 b1 b0; decide

theorem getLsbD_nibbleOfBits_one : (nibbleOfBits b3 b2 b1 b0).getLsbD 1 = b1 := by
  revert b3 b2 b1 b0; decide

theorem getLsbD_nibbleOfBits_two : (nibbleOfBits b3 b2 b1 b0).getLsbD 2 = b2 := by
  revert b3 b2 b1 b0; decide

theorem getLsbD_nibbleOfBits_three : (nibbleOfBits b3 b2 b1 b0).getLsbD 3 = b3 := by
  revert b3 b2 b1 b0; decide

end

/-- A nibble is put together from its own bits. -/
theorem nibbleOfBits_getLsbD (a : Nibble) :
    nibbleOfBits (a.getLsbD 3) (a.getLsbD 2) (a.getLsbD 1) (a.getLsbD 0) = a := by
  revert a; decide

/-- Every nibble is four bits put together. -/
theorem exists_eq_nibbleOfBits (a : Nibble) : ∃ b3 b2 b1 b0, a = nibbleOfBits b3 b2 b1 b0 :=
  ⟨_, _, _, _, (nibbleOfBits_getLsbD a).symm⟩

/-! ### The rotates -/

section
variable (a : Nibble) (c : Bool)

/-- R202: A3 to A0 become a[2], a[1], a[0], c, and `CF` becomes a[3]. -/
theorem rotateLeftCarry_eq :
    rotateLeftCarry a c = ⟨nibbleOfBits (a.getLsbD 2) (a.getLsbD 1) (a.getLsbD 0) c, a.getLsbD 3⟩ := by
  revert a c; decide

/-- R204: A3 to A0 become c, a[3], a[2], a[1], and `CF` becomes a[0]. -/
theorem rotateRightCarry_eq :
    rotateRightCarry a c = ⟨nibbleOfBits c (a.getLsbD 3) (a.getLsbD 2) (a.getLsbD 1), a.getLsbD 0⟩ := by
  revert a c; decide

/-- R201: the plain rotate takes the leaving bit in again where R202 takes in the carry. -/
theorem rotateLeft_eq : rotateLeft a = rotateLeftCarry a (a.getLsbD 3) := by
  revert a; decide

/-- R203: the plain rotate takes the leaving bit in again where R204 takes in the carry. -/
theorem rotateRight_eq : rotateRight a = rotateRightCarry a (a.getLsbD 0) := by
  revert a; decide

end

/-- What each rotate makes of `ACC` and `CF` (R201 to R204); the other instructions are none. -/
def rotationOf : Instr → Option (AluResult → AluResult)
  | .rlA => some fun r => rotateLeft r.value
  | .rlcA => some fun r => rotateLeftCarry r.value r.carry
  | .rrA => some fun r => rotateRight r.value
  | .rrcA => some fun r => rotateRightCarry r.value r.carry
  | _ => none

/-- A rotate leaves its rotation of `ACC` and `CF`, and nothing else. -/
theorem exec_of_rotation {i : Instr} {f : AluResult → AluResult} (s : State) (h : rotationOf i = some f) :
    exec i s = .next (setAccCarry s 1 (f ⟨s.acc, s.cf⟩)) := by
  cases i with
  | rlA | rlcA | rrA | rrcA =>
    obtain rfl := Option.some.inj h
    rfl
  | _ => cases h

section
variable {o : Result} {s : State} {c : Bool}

/-- An outcome that only leaves `ACC` rotated left with `c` taken in, bit by bit, with its frame. -/
theorem leaves_rotatedLeft (ho : o = .next (setAccCarry s 1 (rotateLeftCarry s.acc c))) :
    ∃ t, o = .next t ∧ t.acc.getLsbD 3 = s.acc.getLsbD 2 ∧ t.acc.getLsbD 2 = s.acc.getLsbD 1 ∧
      t.acc.getLsbD 1 = s.acc.getLsbD 0 ∧ t.acc.getLsbD 0 = c ∧ t.cf = s.acc.getLsbD 3 ∧
      t = { s with pc := s.pc + 1, acc := t.acc, cf := t.cf } ∧ KeepsCells s t := by
  rw [rotateLeftCarry_eq] at ho
  exact ⟨_, ho, getLsbD_nibbleOfBits_three .., getLsbD_nibbleOfBits_two .., getLsbD_nibbleOfBits_one ..,
    getLsbD_nibbleOfBits_zero .., rfl, setAccCarry_frame ..⟩

/-- An outcome that only leaves `ACC` rotated right with `c` taken in, bit by bit, with its frame. -/
theorem leaves_rotatedRight (ho : o = .next (setAccCarry s 1 (rotateRightCarry s.acc c))) :
    ∃ t, o = .next t ∧ t.acc.getLsbD 0 = s.acc.getLsbD 1 ∧ t.acc.getLsbD 1 = s.acc.getLsbD 2 ∧
      t.acc.getLsbD 2 = s.acc.getLsbD 3 ∧ t.acc.getLsbD 3 = c ∧ t.cf = s.acc.getLsbD 0 ∧
      t = { s with pc := s.pc + 1, acc := t.acc, cf := t.cf } ∧ KeepsCells s t := by
  rw [rotateRightCarry_eq] at ho
  exact ⟨_, ho, getLsbD_nibbleOfBits_zero .., getLsbD_nibbleOfBits_one .., getLsbD_nibbleOfBits_two ..,
    getLsbD_nibbleOfBits_three .., rfl, setAccCarry_frame ..⟩

end

/-- Settles O44: a plain rotate is the rotate through the carry that takes in the leaving bit, so each direction is one
argument. -/
theorem rotateResults : Obligations.RotateResults := by
  intro s
  refine ⟨⟨rfl, rfl, rfl, rfl⟩, ?left, ?right⟩
  case left =>
    have hrl : exec .rlA s = .next (setAccCarry s 1 (rotateLeftCarry s.acc (s.acc.getLsbD 3))) := by
      rw [exec_of_rotation s rfl, rotateLeft_eq]
    simp only [List.forall_mem_cons, List.not_mem_nil, false_imp_iff, implies_true, and_true]
    exact ⟨⟨rfl, leaves_rotatedLeft hrl⟩, ⟨rfl, leaves_rotatedLeft rfl⟩⟩
  case right =>
    have hrr : exec .rrA s = .next (setAccCarry s 1 (rotateRightCarry s.acc (s.acc.getLsbD 0))) := by
      rw [exec_of_rotation s rfl, rotateRight_eq]
    simp only [List.forall_mem_cons, List.not_mem_nil, false_imp_iff, implies_true, and_true]
    exact ⟨⟨rfl, leaves_rotatedRight hrr⟩, ⟨rfl, leaves_rotatedRight rfl⟩⟩

/-! ### Sequences of rotates -/

/-- What a sequence of instructions makes of `ACC` and `CF` by the rotates in it. -/
def rotated (is : List Instr) (r : AluResult) : AluResult :=
  is.foldl (fun r i => ((rotationOf i).getD id) r) r

/-- Nothing executed leaves `ACC` and `CF` as they are. -/
theorem setAccCarry_self (s : State) : setAccCarry s 0 ⟨s.acc, s.cf⟩ = s := by
  simp only [setAccCarry, advance, BitVec.add_zero]

/-- Rotates in sequence leave all their rotations of `ACC` and `CF`, and nothing else. -/
theorem runInstrs_of_rotates {is : List Instr} (s : State) (h : ∀ i ∈ is, (rotationOf i).isSome = true) :
    runInstrs is s = .next (setAccCarry s is.length (rotated is ⟨s.acc, s.cf⟩)) := by
  induction is generalizing s with
  | nil => exact congrArg _ (setAccCarry_self s).symm
  | cons i is ih =>
    obtain ⟨hi, his⟩ := List.forall_mem_cons.mp h
    obtain ⟨f, hf⟩ := Option.isSome_iff_exists.mp hi
    have hrot : rotated (i :: is) ⟨s.acc, s.cf⟩ = rotated is (f ⟨s.acc, s.cf⟩) := by
      simp only [rotated, List.foldl_cons, hf, Option.getD_some]
    rw [runInstrs_cons_of_next is (exec_of_rotation s hf), ih _ his, setAccCarry_setAccCarry, hrot, List.length_cons,
      Nat.add_comm]
    rfl

section
variable (b3 b2 b1 b0 c : Bool)

@[simp] theorem rotateLeftCarry_nibbleOfBits :
    rotateLeftCarry (nibbleOfBits b3 b2 b1 b0) c = ⟨nibbleOfBits b2 b1 b0 c, b3⟩ := by
  rw [rotateLeftCarry_eq, getLsbD_nibbleOfBits_zero, getLsbD_nibbleOfBits_one, getLsbD_nibbleOfBits_two,
    getLsbD_nibbleOfBits_three]

@[simp] theorem rotateRightCarry_nibbleOfBits :
    rotateRightCarry (nibbleOfBits b3 b2 b1 b0) c = ⟨nibbleOfBits c b3 b2 b1, b0⟩ := by
  rw [rotateRightCarry_eq, getLsbD_nibbleOfBits_zero, getLsbD_nibbleOfBits_one, getLsbD_nibbleOfBits_two,
    getLsbD_nibbleOfBits_three]

@[simp] theorem rotateLeft_nibbleOfBits : rotateLeft (nibbleOfBits b3 b2 b1 b0) = ⟨nibbleOfBits b2 b1 b0 b3, b3⟩ := by
  rw [rotateLeft_eq, getLsbD_nibbleOfBits_three, rotateLeftCarry_nibbleOfBits]

@[simp] theorem rotateRight_nibbleOfBits : rotateRight (nibbleOfBits b3 b2 b1 b0) = ⟨nibbleOfBits b0 b3 b2 b1, b0⟩ := by
  rw [rotateRight_eq, getLsbD_nibbleOfBits_zero, rotateRightCarry_nibbleOfBits]

end

section
variable {is : List Instr} {s : State} (hrot : ∀ i ∈ is, (rotationOf i).isSome = true)
include hrot

/-- Rotates whose rotations restore the accumulator do so in any state. -/
theorem runInstrs_restores_acc (h : (rotated is ⟨s.acc, s.cf⟩).value = s.acc) :
    ∃ t, runInstrs is s = .next t ∧ t.acc = s.acc :=
  ⟨_, runInstrs_of_rotates s hrot, h⟩

/-- Rotates whose rotations restore accumulator and carry do so in any state. -/
theorem runInstrs_restores_acc_cf (h : rotated is ⟨s.acc, s.cf⟩ = ⟨s.acc, s.cf⟩) :
    ∃ t, runInstrs is s = .next t ∧ t.acc = s.acc ∧ t.cf = s.cf :=
  ⟨_, runInstrs_of_rotates s hrot, congrArg AluResult.value h, congrArg AluResult.carry h⟩

end

/-- Settles O45: with `ACC` written as its four bits, each sequence of rotations brings every bit back to its place. -/
theorem rotateLaws : Obligations.RotateLaws := by
  intro s
  obtain ⟨b3, b2, b1, b0, hacc⟩ := exists_eq_nibbleOfBits s.acc
  simp only [List.forall_mem_cons, List.not_mem_nil, false_imp_iff, implies_true, and_true]
  refine ⟨⟨?rl, ?rr⟩, ⟨?rlc, ?rrc⟩, ?opposite, ?oppositeCarry⟩
  case rl | rr | opposite => exact runInstrs_restores_acc (by decide) (by simp [rotated, rotationOf, hacc])
  case rlc | rrc | oppositeCarry => exact runInstrs_restores_acc_cf (by decide) (by simp [rotated, rotationOf, hacc])

/-! ### Input and output -/

/-- R66, D16: bit `k` of a port read is the level of pin `k`. -/
theorem getLsbD_portRead (s : State) (p : InPort) (free : Nibble) (k : Fin 4) :
    (portRead s p free).getLsbD k.val = pinLevel (s.opts.pullUp p) (free.getLsbD k.val) (getPin (portPins s p) k) := by
  match k with
  | 0 => exact getLsbD_nibbleOfBits_zero ..
  | 1 => exact getLsbD_nibbleOfBits_one ..
  | 2 => exact getLsbD_nibbleOfBits_two ..
  | 3 => exact getLsbD_nibbleOfBits_three ..

/-- R38, R66: where the spec gives pin `k` a level, bit `k` of a port read is that level, whatever the free value. -/
theorem getLsbD_portRead_of_knownLevel {s : State} {p : InPort} {k : Fin 4} {level : Bool} (free : Nibble)
    (h : knownLevel s p (getPin (portPins s p) k) = some level) : (portRead s p free).getLsbD k.val = level := by
  rw [getLsbD_portRead, pinLevel_of_knownLevel _ h]

/-- R205: an input reads every pin that has a level, and touches only `PC`, `ACC` and the count of free values. -/
theorem inputPort_reads (s : State) (p : InPort) :
    ∃ t, inputPort s p = .next t ∧
      (∀ k : Fin 4,
        (getPin (portPins s p) k = .high → t.acc.getLsbD k.val = true) ∧
        (getPin (portPins s p) k = .low → t.acc.getLsbD k.val = false) ∧
        (getPin (portPins s p) k = .floating → s.opts.pullUp p = true → t.acc.getLsbD k.val = true)) ∧
      t = { s with pc := s.pc + 1, acc := t.acc, freeCount := t.freeCount } ∧ KeepsCells s t := by
  refine ⟨_, rfl, fun k => ⟨fun hpin => ?high, fun hpin => ?low, fun hpin hpull => ?pulledUp⟩, rfl, fun _ => rfl⟩
  case high => exact getLsbD_portRead_of_knownLevel _ (by rw [hpin, knownLevel])
  case low => exact getLsbD_portRead_of_knownLevel _ (by rw [hpin, knownLevel])
  case pulledUp => exact getLsbD_portRead_of_knownLevel _ (by rw [hpin, knownLevel, if_pos hpull])

/-- Settles O46: the three inputs are one read of a port each, and the output is the record update of the latch (R206). -/
theorem portTransfers : Obligations.PortTransfers := by
  intro s
  have input := inputPort_reads s
  simp only [List.forall_mem_cons, List.not_mem_nil, false_imp_iff, implies_true, and_true]
  exact ⟨⟨input .pm, input .ps, input .pp⟩, rfl⟩

end Sys2Proof.Machine
end

section
/-! PROOFS for the family 45_branch.md. Every conditional jump is one record update of `PC` (`branchIf_eq`), and the value it
gives `PC` is said once as a number (`toNat_branchIf_pc`); the instructions differ in their condition only. -/

namespace Sys2Proof.Machine

/-! ### The unconditional jump -/

/-- Settles O47: code, cycles and effect are the definitions' own (R222). -/
theorem jumpResult : Obligations.JumpResult := by
  intro s addr
  exact ⟨rfl, rfl, rfl⟩

/-! ### Where a conditional jump goes -/

section
variable (c : Bool) (addr : BitVec 11) (s : State)

/-- R25: the address after a two-byte instruction as a number. -/
theorem toNat_pc_add_two : (s.pc + 2).toNat = (s.pc.toNat + 2) % 4096 := BitVec.toNat_add ..

/-- R221, D4: the target is the address within the 2048-byte half of `next`. -/
theorem toNat_condTarget : (condTarget s addr).toNat = (s.pc.toNat + 2) % 4096 / 2048 * 2048 + addr.toNat := by
  have hhalf : ((s.pc + 2).extractLsb' 11 1).toNat = (s.pc.toNat + 2) % 4096 / 2048 := by
    rw [BitVec.extractLsb'_toNat, toNat_pc_add_two, Nat.shiftRight_eq_div_pow]
    omega
  rw [condTarget, BitVec.toNat_append, ← Nat.shiftLeft_add_eq_or_of_lt addr.isLt, hhalf, Nat.shiftLeft_eq]

/-- R221: a conditional jump writes `PC` and nothing else. -/
theorem branchIf_eq : branchIf c addr s = { s with pc := (branchIf c addr s).pc } := by
  cases c <;> rfl

/-- R221: where a conditional jump goes, as a number. -/
theorem toNat_branchIf_pc :
    (branchIf c addr s).pc.toNat =
      if c = true then (s.pc.toNat + 2) % 4096 / 2048 * 2048 + addr.toNat else (s.pc.toNat + 2) % 4096 := by
  rw [branchIf_pc, apply_ite BitVec.toNat, toNat_condTarget, toNat_pc_add_two]

/-- A conditional jump changes no data cell. -/
theorem branchIf_keepsCells : KeepsCells s (branchIf c addr s) := by
  intro a
  rw [branchIf_eq]
  rfl

end

/-! ### The conditional jumps -/

/-- An outcome that only is a conditional jump: where it goes as a number, with its frame. -/
theorem leaves_branch {o : Result} {c : Bool} {addr : BitVec 11} {s : State} (ho : o = .next (branchIf c addr s)) :
    ∃ t, o = .next t ∧
      t.pc.toNat = (if c = true then (s.pc.toNat + 2) % 4096 / 2048 * 2048 + addr.toNat else (s.pc.toNat + 2) % 4096) ∧
      t = { s with pc := t.pc } ∧ KeepsCells s t :=
  ⟨_, ho, toNat_branchIf_pc c addr s, branchIf_eq c addr s, branchIf_keepsCells c addr s⟩

/-- Settles O48: each of the eight instructions is the conditional jump on the condition listed with it. -/
theorem conditionalJumps : Obligations.ConditionalJumps := by
  intro s addr n
  simp only [List.forall_mem_cons, List.not_mem_nil, false_imp_iff, implies_true, and_true]
  refine ⟨?jc, ?jnc, ?jan, ?jzA, ?jnzA, ?jnzR0, ?jnzR1, ?jnzR4⟩
  case jc | jnc | jan | jzA | jnzA | jnzR0 | jnzR1 | jnzR4 => exact leaves_branch rfl

/-- Settles O49: `JTMR` is the conditional jump on `TF`, with `TF` cleared in the state it leaves (D19). -/
theorem timerFlagJump : Obligations.TimerFlagJump := by
  intro s addr
  have hframe : { branchIf s.tf addr s with tf := false } = { s with pc := (branchIf s.tf addr s).pc, tf := false } :=
    congrArg (fun t : State => { t with tf := false }) (branchIf_eq s.tf addr s)
  exact ⟨_, rfl, toNat_branchIf_pc s.tf addr s, rfl, hframe, branchIf_keepsCells s.tf addr s⟩

end Sys2Proof.Machine
end

section
/-! PROOFS for the family 46_subroutine_flag.md. `CALL` is the only instruction here that asks for the state: one equation per
answer of `SUB`. The returns are one copy from the stack, with and without the carry; the flag instructions and `NOP` are
record updates. -/

namespace Sys2Proof.Machine

/-! ### The call -/

section
variable {s : State} (addr : RomAddr)

/-- R240, D11: outside an interrupt routine a call goes through, also from a subroutine, over the address saved before. -/
theorem execCall_of_ne_isr (h : s.sub ≠ .isr) :
    execCall addr s = .next { s with stkPc := s.pc + 2, sub := .called, pc := addr } := by
  unfold execCall
  cases hs : s.sub with
  | isr => exact absurd hs h
  | main | called => rfl

/-- R323, D11: within an interrupt routine a call has no effect the source gives. -/
theorem execCall_of_isr (h : s.sub = .isr) : execCall addr s = .fault .callInInterruptRoutine := by
  rw [execCall, h]

end

/-- Settles O50: the two clauses are the two answers `SUB` can give to a call. -/
theorem callResult : Obligations.CallResult := by
  intro s addr
  exact ⟨execCall_of_ne_isr addr, execCall_of_isr addr⟩

/-! ### The returns -/

/-- R241: a return that restores no carry leaves `CF` as it is. -/
theorem returnFromStack_false (s : State) : returnFromStack false s = { s with pc := s.stkPc, sub := .main } := rfl

/-- R242: the return from an interrupt restores the carry too. -/
theorem returnFromStack_true (s : State) :
    returnFromStack true s = { s with pc := s.stkPc, cf := s.stkCf, sub := .main } := rfl

/-- Settles O51: the returns are one copy from the stack, which differs in `CF` only. -/
theorem returnResults : Obligations.ReturnResults := by
  intro s
  exact ⟨congrArg Host.Outcome.next (returnFromStack_false s), congrArg Host.Outcome.next (returnFromStack_true s)⟩

/-! ### Flags and delay -/

/-- Settles O52: codes, cycles and effects are the definitions' own. -/
theorem carryInstructionsAndNop : Obligations.CarryInstructionsAndNop := by
  intro s
  exact ⟨⟨rfl, rfl, rfl⟩, ⟨rfl, rfl, rfl⟩, rfl, rfl, rfl⟩

/-- Settles O53: both are the record update of `IE`, so the requests `EXTF` and `TF` stay by definition. -/
theorem interruptEnableResults : Obligations.InterruptEnableResults := by
  intro s
  exact ⟨rfl, rfl⟩

end Sys2Proof.Machine
end

section
/-! PROOFS for the family 47_timer.md. The two nibble reads are one operation with two answers (`readTimer_of_exact`,
`readTimer_of_open`); the two nibble writes put a byte together from two nibbles, one of them the old one. The laws of R267
are a write followed by an exact read (`runInstrs_readBack`). -/

namespace Sys2Proof.Machine

/-! ### Load, start and stop -/

/-- Settles O54: codes, cycles and effects are the definitions' own, and each effect is one record update. -/
theorem timerLoadStartStop : Obligations.TimerLoadStartStop := by
  intro s xx
  exact ⟨⟨rfl, rfl, rfl⟩, ⟨rfl, rfl, rfl⟩, rfl, rfl, rfl⟩

/-! ### Nibble reads -/

section
variable {s : State}

/-- R336: which reads of the timer are open. -/
theorem timerReadOpen_iff : timerReadOpen s = true ↔ s.ton = true ∧ s.opts.tmrSrc = .ext := by
  rw [timerReadOpen, Bool.and_eq_true, decide_eq_true_iff]

/-- R263: a read of a stopped timer, or of one with an internal source, is exact. -/
theorem readTimer_of_exact (v : Nibble) (h : s.ton = false ∨ s.opts.tmrSrc ≠ .ext) :
    readTimer s v = .next (setAcc s 1 v) := by
  have hclosed : ¬ timerReadOpen s = true := by
    rw [timerReadOpen_iff, not_and_or, Bool.not_eq_true]
    exact h
  rw [readTimer, if_neg hclosed]

/-- R336, U8: a read of a timer that runs from pad TMCLK draws a free value. -/
theorem readTimer_of_open (v : Nibble) (hton : s.ton = true) (hsrc : s.opts.tmrSrc = .ext) :
    readTimer s v = .next (setAcc (drawn s) 1 (freeBits s 4)) := by
  rw [readTimer, if_pos (timerReadOpen_iff.mpr ⟨hton, hsrc⟩)]

end

/-- Settles O55: the two clauses are the two answers of a nibble read. -/
theorem timerReads : Obligations.TimerReads := by
  intro s
  refine ⟨fun hexact => ?exactRead, fun hton hsrc => ?drawnRead⟩
  case exactRead =>
    exact ⟨_, _, readTimer_of_exact (loNibble s.tmr) hexact, readTimer_of_exact (hiNibble s.tmr) hexact,
      toNat_loNibble s.tmr, toNat_hiNibble s.tmr, rfl, rfl⟩
  case drawnRead =>
    exact ⟨_, _, readTimer_of_open (loNibble s.tmr) hton hsrc, readTimer_of_open (hiNibble s.tmr) hton hsrc, rfl, rfl⟩

/-! ### Nibble writes -/

/-- A byte put together from its nibbles, as a number. -/
theorem toNat_nibbles (hi lo : Nibble) : (hi ++ lo).toNat = hi.toNat * 16 + lo.toNat := by
  have hdiv := toNat_nibbles_div hi lo
  have hmod : (hi ++ lo).toNat % 16 = lo.toNat := by rw [← toNat_loNibble, loNibble_append]
  omega

/-- R267: the high nibble written and then the low one make up the byte that `TIMER` would load. -/
theorem runInstrs_nibbleWrites (s : State) (hi lo : Nibble) :
    ∃ t, runInstrs [.movAX hi, .movTmrhA, .movAX lo, .movTmrlA] s = .next t ∧ t.tmr = hi ++ lo :=
  ⟨_, rfl, congrArg (· ++ lo) (hiNibble_append hi (loNibble s.tmr))⟩

/-- R267: a nibble read after an instruction that leaves the timer stopped gives `ACC` exactly the nibble it reads. -/
theorem runInstrs_readBack {w r : Instr} {s t : State} {v : Nibble} (hw : exec w s = .next t) (hton : t.ton = false)
    (hr : exec r t = readTimer t v) : ∃ u, runInstrs [w, r] s = .next u ∧ u.acc = v := by
  rw [runInstrs_cons_of_next _ hw, runInstrs_cons_of_next _ (hr.trans (readTimer_of_exact v (.inl hton)))]
  exact ⟨_, rfl, rfl⟩

/-- Settles O56: the byte left by a nibble write in numbers, then the laws of R267, each a write and an exact read. -/
theorem timerNibbleWrites : Obligations.TimerNibbleWrites := by
  intro s
  refine ⟨⟨_, rfl, ?low, rfl⟩, ⟨_, rfl, ?high, rfl⟩, fun hton h l => ⟨?load, ?loadLow, ?loadHigh, ?readBack⟩⟩
  case low => exact (toNat_nibbles ..).trans (by rw [toNat_hiNibble])
  case high => exact (toNat_nibbles ..).trans (by rw [toNat_loNibble])
  case load =>
    obtain ⟨t, hrun, htmr⟩ := runInstrs_nibbleWrites s h l
    exact ⟨t, _, hrun, rfl, htmr⟩
  case loadLow => exact runInstrs_readBack rfl hton (congrArg (readTimer _) (loNibble_append h l))
  case loadHigh => exact runInstrs_readBack rfl hton (congrArg (readTimer _) (hiNibble_append h l))
  case readBack =>
    simp only [List.forall_mem_cons, List.not_mem_nil, false_imp_iff, implies_true, and_true]
    exact ⟨runInstrs_readBack rfl hton (congrArg (readTimer _) (loNibble_append (hiNibble s.tmr) s.acc)),
      runInstrs_readBack rfl hton (congrArg (readTimer _) (hiNibble_append s.acc (loNibble s.tmr)))⟩

end Sys2Proof.Machine
end

section
/-! PROOFS for the family 48_tableread.md. There are two forms of table read, to R4 and to memory; each is said once for any page
(`tableToR4_reads`, `tableToMem_reads`), and the instructions differ in the page only. -/

namespace Sys2Proof.Machine

/-! ### The table address -/

/-- R280: a table address as a number. -/
theorem tableAddr_eq_ofNat (page acc low : Nibble) :
    tableAddr page acc low = BitVec.ofNat 12 (page.toNat * 256 + acc.toNat * 16 + low.toNat) := by
  apply BitVec.eq_of_toNat_eq
  have hpage := page.isLt
  have hacc := acc.isLt
  have hlow := low.isLt
  rw [tableAddr, BitVec.toNat_append, ← Nat.shiftLeft_add_eq_or_of_lt hlow, Nat.shiftLeft_eq, toNat_nibbles, BitVec.toNat_ofNat]
  omega

/-- R280, D5: the current page is that of the address after the instruction. -/
theorem toNat_currentPage (s : State) : (currentPage s).toNat = (s.pc.toNat + 1) % 4096 / 256 := by
  have hnext : (s.pc + 1).toNat = (s.pc.toNat + 1) % 4096 := BitVec.toNat_add ..
  rw [currentPage, BitVec.extractLsb'_toNat, hnext, Nat.shiftRight_eq_div_pow]
  omega

/-- A byte is its two nibbles. -/
theorem toNat_hiNibble_loNibble (b : Byte) : (hiNibble b).toNat * 16 + (loNibble b).toNat = b.toNat := by
  rw [← toNat_nibbles, nibbles_append]

/-! ### The two forms of table read -/

section
variable {s : State} {page : Nibble} {base : Nat} (hp : populated s.opts.device (p10 s) = true)
  (hbase : page.toNat * 256 = base)
include hp hbase

/-- R281, R283: a read to R4 leaves in R4 and `ACC` the byte whose low address nibble is in the cell at `P10`. -/
theorem tableToR4_reads :
    ∃ t, tableToR4 page s = .next t ∧
      t.r4.toNat * 16 + t.acc.toNat =
        (romRead s (BitVec.ofNat 12 (base + s.acc.toNat * 16 + (cellValue s (p10 s)).toNat))).toNat ∧
      t = { s with pc := s.pc + 1, r4 := t.r4, acc := t.acc } ∧ KeepsCells s t := by
  refine ⟨_, tableToR4_next_iff.mpr ⟨hp, rfl⟩, ?byte, rfl, fun _ => rfl⟩
  case byte => rw [← hbase, ← tableAddr_eq_ofNat, toNat_hiNibble_loNibble]

/-- R282, R284: a read to memory leaves in the cell at `P10` and `ACC` the byte whose low address nibble is in R4. -/
theorem tableToMem_reads :
    ∃ t, tableToMem page s = .next t ∧
      (cellValue t (p10 s)).toNat * 16 + t.acc.toNat =
        (romRead s (BitVec.ofNat 12 (base + s.acc.toNat * 16 + s.r4.toNat))).toNat ∧
      t = { s with pc := s.pc + 1, dm := t.dm, acc := t.acc } ∧ KeepsCellsBut (p10 s) s t := by
  refine ⟨_, tableToMem_next_iff.mpr ⟨hp, rfl⟩, ?byte, rfl, fun a ha => ?others⟩
  case byte => rw [cellValue_setCell, if_pos rfl, setCell_acc, ← hbase, ← tableAddr_eq_ofNat, toNat_hiNibble_loNibble]
  case others => exact (cellValue_setCell _ _ a _).trans (if_neg ha)

end

/-! ### The obligations -/

/-- Settles O57: both forms on page F; in the gap both fault. -/
theorem pageFReads : Obligations.PageFReads := by
  intro s
  refine ⟨⟨rfl, rfl, rfl, rfl⟩, fun hgap => ?gap, fun hp => ?reads⟩
  case gap => exact ⟨exec_p10_gap rfl hgap, exec_p10_gap rfl hgap⟩
  case reads => exact ⟨tableToR4_reads (page := 0xF) hp rfl, tableToMem_reads (page := 0xF) hp rfl⟩

/-- Settles O58: both forms on the page of the address after the instruction. -/
theorem currentPageReads : Obligations.CurrentPageReads := by
  intro s hp
  have hbase : (currentPage s).toNat * 256 = (s.pc.toNat + 1) % 4096 / 256 * 256 := by rw [toNat_currentPage]
  exact ⟨tableToR4_reads hp hbase, tableToMem_reads hp hbase⟩

end Sys2Proof.Machine
end

section
/-! PROOFS shared by the families 49_sound_misc.md and 60_exceptions.md. Each event of the surroundings is one record update of the
state it finds, said here as an equation. -/

namespace Sys2Proof.Machine

/-! ### What an event writes -/

/-- R331: whether a pin's change is a wake-up. -/
def wakes (s : State) (p : InPort) (i : Fin 4) (d : PinDrive) : Bool :=
  s.halted && (s.opts.wakeMask p).getLsbD i.val && pinFalls s p i d

section
variable (s : State)

/-- R331: a pin's change writes the pins, and the request and the halt when it is a wake-up. -/
theorem pinChange_eq (p : InPort) (i : Fin 4) (d : PinDrive) :
    pinChange s p i d =
      { s with
        pins := (setPortPins s p (setPin (portPins s p) i d)).pins
        extf := wakes s p i d || s.extf
        halted := !wakes s p i d && s.halted
        freeCount := s.freeCount + 1 } := by
  rcases pinChange_cases s p i d with ⟨hh, hw, hf, h⟩ | ⟨hn, h⟩
  · have hwakes : wakes s p i d = true := by rw [wakes, hh, hw, hf]; rfl
    rw [h, hwakes]
    cases p <;> rfl
  · have hwakes : wakes s p i d = false := by
      rw [← Bool.not_eq_true]
      simpa only [wakes, Bool.and_eq_true, and_assoc] using hn
    rw [h, hwakes]
    cases p <;> rfl

/-- R334: a tick writes the count and the timer flag, where the timer counts. -/
theorem timerTick_eq :
    timerTick s =
      { s with
        tmr := if timerCounts s then s.tmr + 1 else s.tmr
        tf := s.tf || (timerCounts s && decide (s.tmr = 0xFF)) } := by
  rcases timerTick_cases s with ⟨hc, ht, h⟩ | ⟨hc, ht, h⟩ | ⟨hc, h⟩
  · simp [h, hc, ht]
  · have hne : decide (s.tmr = 0xFF) = false := decide_eq_false ht
    rw [h, hc, hne, if_pos rfl, Bool.and_false, Bool.or_false]
  · simp [h, hc]

/-- R12, R290, R330: the end of a sound writes whether one plays, for a one-cycle sound of a running machine. -/
theorem soundEnds_eq :
    soundEnds s = { s with sndOn := s.sndOn && (decide (s.sndMode = .loop) || s.halted) } := by
  unfold soundEnds
  split
  case isTrue h =>
    obtain ⟨-, hmode, hh⟩ := h
    simp [hmode, hh]
  case isFalse h =>
    have hstays : s.sndOn = true → s.sndMode = .loop ∨ s.halted = true := by
      intro hon
      cases hmode : s.sndMode with
      | loop => exact .inl rfl
      | one => exact .inr (by simpa [hon, hmode] using h)
    have hkeep : (s.sndOn && (decide (s.sndMode = .loop) || s.halted)) = s.sndOn := by simpa using hstays
    rw [hkeep]

/-- No event looks at what is scheduled after it, or changes it (R320; log entry 6). -/
theorem fireEvent_schedule (e : EnvEvent) (q : List EnvEvent) :
    fireEvent e { s with schedule := q } = { fireEvent e s with schedule := q } := by
  cases e with
  | processor | intFalls | resetPulse => rfl
  | timerClock => simp only [fireEvent, timerTick_eq]; rfl
  | pinChange p i d => simp only [fireEvent, pinChange_eq]; cases p <;> rfl
  | soundEnds => simp only [fireEvent, soundEnds_eq]

end

end Sys2Proof.Machine
end

section
/-! PROOFS for the family 49_sound_misc.md. Every operation of the step answers alike with the sound control state forgotten
(the `…_sameButSound` lemmas, one for each shared operation), and so does the step (`step_sameButSound`). -/

namespace Sys2Proof.Machine

/-! ### The sound control state and everything else -/

/-- Two answers that differ in the sound control state only (R290, R296). -/
def SameButSound (o o' : Result) : Prop := forgetSoundIn o = forgetSoundIn o'

section
variable (s : State)

/-- A data cell that is read leaves the answer alike when what is done with its value does (R63). -/
theorem readCell_sameButSound {a : DataAddr} {k k' : Nibble → Result} (hk : ∀ v, SameButSound (k v) (k' v)) :
    SameButSound (readCell s a k) (readCell (forgetSound s) a k') := by
  cases hp : populated s.opts.device a with
  | true =>
    rw [readCell_populated hp, readCell_populated (s := forgetSound s) hp]
    exact hk (cellValue s a)
  | false => rw [readCell_gap hp, readCell_gap (s := forgetSound s) hp]; rfl

/-- A store goes to the same cell, or faults in the same gap (R64). -/
theorem writeCell_sameButSound (a : DataAddr) (v : Nibble) :
    SameButSound (writeCell s a v) (writeCell (forgetSound s) a v) := by
  cases hp : populated s.opts.device a with
  | true => rw [writeCell_populated hp, writeCell_populated (s := forgetSound s) hp]; rfl
  | false => rw [writeCell_gap hp, writeCell_gap (s := forgetSound s) hp]; rfl

/-- A read-modify-write is such a read and such a store. -/
theorem updateCell_sameButSound (a : DataAddr) (f : Nibble → Nibble) :
    SameButSound (updateCell s a f) (updateCell (forgetSound s) a f) :=
  readCell_sameButSound s fun v => writeCell_sameButSound (advance s 1) a (f v)

/-- A table read to R4 goes on with the same cell and the same program byte. -/
theorem tableToR4_sameButSound (page : Nibble) : SameButSound (tableToR4 page s) (tableToR4 page (forgetSound s)) :=
  readCell_sameButSound s fun _ => rfl

/-- A timer read is exact or drawn alike, and draws the same value (R336). -/
theorem readTimer_sameButSound (v : Nibble) : SameButSound (readTimer s v) (readTimer (forgetSound s) v) := by
  cases ho : timerReadOpen s with
  | true => rw [readTimer, ho, readTimer, show timerReadOpen (forgetSound s) = true from ho]; rfl
  | false => rw [readTimer, ho, readTimer, show timerReadOpen (forgetSound s) = false from ho]; rfl

/-- A conditional jump goes to the same place (R221). -/
theorem branchIf_sameButSound (c : Bool) (addr : BitVec 11) :
    forgetSound (branchIf c addr s) = forgetSound (branchIf c addr (forgetSound s)) := by
  cases c <;> rfl

/-- A call goes through or faults alike (R240, R323). -/
theorem execCall_sameButSound (addr : RomAddr) : SameButSound (execCall addr s) (execCall addr (forgetSound s)) := by
  by_cases hs : s.sub = .isr
  · rw [execCall_of_isr addr hs, execCall_of_isr (s := forgetSound s) addr hs]; rfl
  · rw [execCall_of_ne_isr addr hs, execCall_of_ne_isr (s := forgetSound s) addr hs]; rfl

/-- No instruction answers differently for another sound control state, but for that state. -/
theorem exec_sameButSound (i : Instr) : SameButSound (exec i s) (exec i (forgetSound s)) := by
  cases i with
  | movAM10 | movAM32 | andAM | xorAM | orAM | adcAM | addAM | sbcAM | subAM =>
    unfold exec; exact readCell_sameButSound s fun _ => rfl
  | readR4A | readFR4A => exact tableToR4_sameButSound s _
  | movM10A | movM32A => exact writeCell_sameButSound (advance s 1) _ s.acc
  | readMR0A | readFMR0A => exact writeCell_sameButSound { advance s 1 with acc := _ } _ _
  | incM10 | decM10 | incM32 | decM32 | andMA | xorMA | orMA => unfold exec; exact updateCell_sameButSound s _ _
  | movATmrl | movATmrh => exact readTimer_sameButSound s _
  | jan n addr | jnzR0 addr | jnzR1 addr | jzA addr | jnzA addr | jc addr | jnc addr | jnzR4 addr =>
    exact congrArg Host.Outcome.next (branchIf_sameButSound s _ addr)
  | jtmr addr =>
    exact congrArg (fun t : State => Host.Outcome.next { t with tf := false }) (branchIf_sameButSound s s.tf addr)
  | call addr => exact execCall_sameButSound s addr
  | _ => rfl

/-- Interrupt entry saves and loads no sound control state (R318). -/
theorem enterInterrupt_sameButSound (src : IntSource) :
    forgetSound (enterInterrupt src s) = forgetSound (enterInterrupt src (forgetSound s)) := by
  cases src <;> rfl

/-- The processor's turn: whether it accepts, what it fetches and what it executes are the same. -/
theorem processorStep_sameButSound : SameButSound (processorStep s) (processorStep (forgetSound s)) := by
  rcases processorStep_cases s with ⟨hh, h⟩ | ⟨src, -, ha, h⟩ | ⟨hh, ha, ⟨i, rest, hd, h⟩ | ⟨e, hd, h⟩⟩
  · rw [h, processorStep_of_halted (s := forgetSound s) hh]; rfl
  · rw [h, processorStep_of_interrupt (s := forgetSound s) ha]
    exact congrArg Host.Outcome.next (enterInterrupt_sameButSound s src)
  · have hu : processorStep (forgetSound s) = exec i (forgetSound s) :=
      (processorStep_of_none (s := forgetSound s) hh ha).trans (runInstruction_of_ok (s := forgetSound s) hd)
    rw [h, hu]
    exact exec_sameButSound s i
  · rw [h, processorStep_of_undefined (s := forgetSound s) hh ha hd]; rfl

/-- The end of a sound is a change of sound control state (R12, R290). -/
theorem forgetSound_soundEnds : forgetSound (soundEnds s) = forgetSound s := by
  rw [soundEnds_eq]
  rfl

/-- No event but the end of a sound looks at the sound control state, and that one touches nothing else. -/
theorem fireEvent_sameButSound (e : EnvEvent) : forgetSound (fireEvent e s) = forgetSound (fireEvent e (forgetSound s)) := by
  cases e with
  | processor | intFalls | resetPulse => rfl
  | timerClock =>
    simp only [fireEvent, timerTick_eq]
    rfl
  | pinChange p i d =>
    simp only [fireEvent, pinChange_eq]
    cases p <;> rfl
  | soundEnds => exact (forgetSound_soundEnds s).trans (forgetSound_soundEnds (forgetSound s)).symm

/-- A step answers as it would with the sound control state forgotten, but for that state. -/
theorem step_sameButSound : SameButSound (step s) (step (forgetSound s)) := by
  cases hs : s.schedule with
  | nil =>
    rw [step_of_empty hs, step_of_empty (s := forgetSound s) hs]
    exact processorStep_sameButSound s
  | cons e q =>
    by_cases he : e = .processor
    · subst he
      rw [step_of_processor hs, step_of_processor (s := forgetSound s) hs]
      exact processorStep_sameButSound { s with schedule := q }
    · rw [step_of_event hs he, step_of_event (s := forgetSound s) hs he]
      exact congrArg Host.Outcome.next (fireEvent_sameButSound { s with schedule := q } e)

end

/-! ### The obligations of this family -/

/-- Settles O25: each of the two steps answers as the step of the one state with the sound control state forgotten. -/
theorem soundNeverReachesTheRest : Obligations.SoundNeverReachesTheRest := by
  intro s u hsu
  calc forgetSoundIn (step s)
      = forgetSoundIn (step (forgetSound s)) := step_sameButSound s
    _ = forgetSoundIn (step (forgetSound u)) := by rw [hsu]
    _ = forgetSoundIn (step u) := (step_sameButSound u).symm

/-- Settles O59: five record updates of the sound control state, and the end of a sound. -/
theorem soundResults : Obligations.SoundResults := by
  intro s n
  refine ⟨rfl, rfl, rfl, rfl, rfl, fun q hq => ?ends⟩
  case ends =>
    rw [step_of_event hq nofun]
    exact congrArg Host.Outcome.next (soundEnds_eq { s with schedule := q })

/-- Settles O60: `HALT` is a record update that asks for no request (R297). -/
theorem haltResult : Obligations.HaltResult := by
  intro s
  rfl

end Sys2Proof.Machine
end

section
/-! PROOFS for the family 60_exceptions.md. What can stop an instruction is one inversion (`exec_next_or_stops`); what one event
leaves of a halted processor is another (`fireEvent_of_halted`). A run of equal events is that event iterated
(`runSteps_replicate`), and a sequence of steps is followed with the lemmas of Laws/Step.lean. -/

namespace Sys2Proof.Machine

/-! ### What stops an instruction -/

/-- The causes for which instruction `i` stops in state `s`, each with its fault mark (R240, R43, R63, R64). -/
inductive Stops (i : Instr) (s : State) : Fault → Prop where
  | call (addr : RomAddr) (hi : i = .call addr) (hs : s.sub = .isr) : Stops i s .callInInterruptRoutine
  | p10 (hi : usesP10 i = true) (hg : populated s.opts.device (p10 s) = false) : Stops i s (.undefinedDataAddress (p10 s))
  | p32 (hi : usesP32 i = true) (hg : populated s.opts.device (p32 s) = false) : Stops i s (.undefinedDataAddress (p32 s))

/-- A nibble read of the timer always answers a next state, exact or drawn (R336). -/
theorem readTimer_answers (s : State) (v : Nibble) : ∃ t, readTimer s v = .next t := by
  unfold readTimer
  split
  · exact ⟨_, rfl⟩
  · exact ⟨_, rfl⟩

/-- An instruction whose pointers are populated, and that is no call within an interrupt routine, answers a next state. -/
theorem exec_next_of_populated {i : Instr} {s : State} (h10 : usesP10 i = true → populated s.opts.device (p10 s) = true)
    (h32 : usesP32 i = true → populated s.opts.device (p32 s) = true) (hcall : ∀ addr, i = .call addr → s.sub ≠ .isr) :
    ∃ t, exec i s = .next t := by
  cases i with
  | adcAM | addAM | sbcAM | subAM | andAM | xorAM | orAM | movAM10 =>
    unfold exec; exact ⟨_, readCell_next_iff.mpr ⟨h10 rfl, rfl⟩⟩
  | readR4A | readFR4A => exact ⟨_, tableToR4_next_iff.mpr ⟨h10 rfl, rfl⟩⟩
  | readMR0A | readFMR0A => exact ⟨_, tableToMem_next_iff.mpr ⟨h10 rfl, rfl⟩⟩
  | andMA | xorMA | orMA | incM10 | decM10 => unfold exec; exact ⟨_, updateCell_populated (h10 rfl)⟩
  | movM10A => exact ⟨_, writeCell_populated (h10 rfl)⟩
  | movAM32 => unfold exec; exact ⟨_, readCell_next_iff.mpr ⟨h32 rfl, rfl⟩⟩
  | incM32 | decM32 => unfold exec; exact ⟨_, updateCell_populated (h32 rfl)⟩
  | movM32A => exact ⟨_, writeCell_populated (h32 rfl)⟩
  | movATmrl | movATmrh => unfold exec; exact readTimer_answers s _
  | call addr => exact ⟨_, execCall_of_ne_isr addr (hcall addr rfl)⟩
  | _ => exact ⟨_, rfl⟩

/-- Every instruction answers a next state or stops with the mark of its cause. -/
theorem exec_next_or_stops (i : Instr) (s : State) :
    (∃ t, exec i s = .next t) ∨ ∃ f, exec i s = .fault f ∧ Stops i s f := by
  by_cases h10 : usesP10 i = true ∧ populated s.opts.device (p10 s) = false
  · obtain ⟨hi, hg⟩ := h10
    exact .inr ⟨_, exec_p10_gap hi hg, .p10 hi hg⟩
  by_cases h32 : usesP32 i = true ∧ populated s.opts.device (p32 s) = false
  · obtain ⟨hi, hg⟩ := h32
    exact .inr ⟨_, exec_p32_gap hi hg, .p32 hi hg⟩
  by_cases hcall : ∃ addr, i = .call addr ∧ s.sub = .isr
  · obtain ⟨addr, rfl, hs⟩ := hcall
    exact .inr ⟨_, execCall_of_isr addr hs, .call addr rfl hs⟩
  · exact .inl (exec_next_of_populated (by simpa using h10) (by simpa using h32) (by simpa using hcall))

/-- What a processor's turn that stops was about to do. -/
inductive TurnStops (s : State) : Fault → Prop where
  | undefined (e : DecodeReject) (hd : decode (fetchWindow s) = .error e) : TurnStops s (.undefinedEncoding s.pc)
  | executing (i : Instr) (rest : List Byte) (f : Fault) (hd : decode (fetchWindow s) = .ok (i, rest)) (hf : Stops i s f) :
      TurnStops s f

/-- R310, D26: the processor's turn answers a next state, or it fetches and stops with one of the three marks. -/
theorem processorStep_next_or_stops (s : State) :
    (∃ t, processorStep s = .next t) ∨
      ∃ f, processorStep s = .fault f ∧ s.halted = false ∧ acceptedInterrupt s = none ∧ TurnStops s f := by
  rcases processorStep_cases s with ⟨-, h⟩ | ⟨src, -, -, h⟩ | ⟨hh, ha, ⟨i, rest, hd, h⟩ | ⟨e, hd, h⟩⟩
  · exact .inl ⟨_, h⟩
  · exact .inl ⟨_, h⟩
  · rcases exec_next_or_stops i s with ⟨t, hx⟩ | ⟨f, hx, hf⟩
    · exact .inl ⟨t, h.trans hx⟩
    · exact .inr ⟨f, h.trans hx, hh, ha, .executing i rest f hd hf⟩
  · exact .inr ⟨_, h, hh, ha, .undefined e hd⟩

/-- A step answers a next state, or it is a processor's turn that fetches and stops. -/
theorem step_next_or_stops (s : State) :
    (∃ t, step s = .next t) ∨
      ∃ f, step s = .fault f ∧ processorsTurn s = true ∧ s.halted = false ∧ acceptedInterrupt s = none ∧
        TurnStops { s with schedule := s.schedule.tail } f := by
  cases hp : processorsTurn s with
  | true =>
    rw [step_of_processorsTurn hp]
    rcases processorStep_next_or_stops { s with schedule := s.schedule.tail } with hnext | ⟨f, h, hh, ha, hf⟩
    · exact .inl hnext
    · exact .inr ⟨f, h, rfl, hh, ha, hf⟩
  | false =>
    rcases step_cases s with ⟨hq, -⟩ | ⟨e, q, -, -, h⟩
    · rcases hq with hq | ⟨q, hq⟩ <;> simp [processorsTurn, hq] at hp
    · exact .inl ⟨_, h⟩

/-- The instruction that a processor's turn executes. -/
theorem executesNext_of_decode {s : State} {i : Instr} {rest : List Byte} (hp : processorsTurn s = true)
    (hh : s.halted = false) (ha : acceptedInterrupt s = none) (hd : decode (fetchWindow s) = .ok (i, rest)) :
    executesNext s = some i := by
  rw [executesNext, if_pos ⟨hp, hh, ha⟩, hd]

/-- Settles O26: no step refuses, as each answers a next state or stops with the mark of its cause. -/
theorem faultsAreTheSpecsThree : Obligations.FaultsAreTheSpecsThree := by
  refine ⟨fun s r h => ?neverRefuses, fun s f h => ?causes⟩
  case neverRefuses =>
    rcases step_next_or_stops s with ⟨t, ht⟩ | ⟨f, hf, -⟩
    · simp [ht] at h
    · simp [hf] at h
  case causes =>
    rcases step_next_or_stops s with ⟨t, ht⟩ | ⟨f', hf, hp, hh, ha, hstops⟩
    · simp [ht] at h
    obtain rfl : f' = f := by simpa [hf] using h
    refine ⟨⟨hp, hh, ha⟩, ?_⟩
    cases hstops with
    | undefined e hd => exact .inl ⟨rfl, e, hd⟩
    | executing i rest _ hd hcause =>
      have hi : executesNext s = some i := executesNext_of_decode hp hh ha hd
      cases hcause with
      | call addr hcall hs => exact .inr (.inl ⟨rfl, hs, addr, hcall ▸ hi⟩)
      | p10 huses hg => exact .inr (.inr ⟨i, hi, .inl ⟨huses, rfl, hg⟩⟩)
      | p32 huses hg => exact .inr (.inr ⟨i, hi, .inr ⟨huses, rfl, hg⟩⟩)

/-! ### Runs of one event -/

/-- A run of equal events is that event iterated, with the schedule moved past them. -/
theorem runSteps_replicate {e : EnvEvent} {s : State} {q : List EnvEvent} {n : Nat}
    (hs : s.schedule = List.replicate n e ++ q) (he : e ≠ .processor) :
    runSteps n s = .next ((fireEvent e)^[n] { s with schedule := q }) := by
  induction n generalizing s with
  | zero =>
    obtain rfl : s.schedule = q := hs
    rfl
  | succ n ih =>
    calc runSteps (n + 1) s
        = runSteps n (fireEvent e { s with schedule := List.replicate n e ++ q }) :=
          runSteps_of_next (step_of_event hs he)
      _ = runSteps n { fireEvent e s with schedule := List.replicate n e ++ q } := by rw [fireEvent_schedule]
      _ = .next ((fireEvent e)^[n] { fireEvent e s with schedule := q }) := ih rfl
      _ = .next ((fireEvent e)^[n + 1] { s with schedule := q }) := by
          rw [Function.iterate_succ_apply, fireEvent_schedule s e q]

/-- D23: several falling edges of INT-bar are one request. -/
theorem iterate_intEdge (s : State) (n : Nat) : intEdge^[n + 1] s = intEdge s := by
  induction n with
  | zero => rfl
  | succ n ih => rw [Function.iterate_succ_apply', ih]; rfl

/-- Settles O9: the edges are one edge iterated. -/
theorem intEdgeLatchesRequest : Obligations.IntEdgeLatchesRequest := by
  intro s q n hs
  rw [runSteps_replicate hs nofun]
  exact congrArg Host.Outcome.next (iterate_intEdge { s with schedule := q } n)

/-- A count of 8 bits that has passed FFH after `n` ticks and one more had passed it before, or stands at FFH. -/
theorem passes_succ_iff (tmr : Byte) (n : Nat) :
    256 ≤ tmr.toNat + (n + 1) ↔ 256 ≤ tmr.toNat + n ∨ tmr + BitVec.ofNat 8 n = 0xFF := by
  have htmr := tmr.isLt
  rw [← BitVec.toNat_inj, BitVec.toNat_add, BitVec.toNat_ofNat, show (0xFF : Byte).toNat = 255 from rfl]
  omega

/-- R334: `n` ticks of a timer that counts. -/
theorem iterate_timerTick {s : State} (hc : timerCounts s = true) (n : Nat) :
    timerTick^[n] s =
      { s with tmr := s.tmr + BitVec.ofNat 8 n, tf := s.tf || decide (256 ≤ s.tmr.toNat + n) } := by
  induction n with
  | zero =>
    have hpassed : decide (256 ≤ s.tmr.toNat + 0) = false := decide_eq_false (by have := s.tmr.isLt; omega)
    rw [hpassed, Bool.or_false, BitVec.add_zero]
    rfl
  | succ n ih =>
    have hcounts : timerCounts (timerTick^[n] s) = true := by rw [ih]; exact hc
    rw [Function.iterate_succ_apply', timerTick_eq, hcounts, ih]
    simp only [if_true, Bool.true_and, passes_succ_iff, Bool.decide_or, Bool.or_assoc, BitVec.ofNat_add, BitVec.add_assoc]
    rfl

/-- R330, R334, D20: when a rising edge of the timer clock counts. -/
theorem timerCounts_iff {s : State} :
    timerCounts s = true ↔
      s.ton = true ∧ (s.halted = false ∨ s.opts.tmrSrc = .ext ∧ s.opts.extTmrInHalt = .counts) := by
  simp [timerCounts]

/-- When it does not. -/
theorem timerCounts_false_of_stopped {s : State}
    (h : s.ton = false ∨ s.halted = true ∧ (s.opts.tmrSrc ≠ .ext ∨ s.opts.extTmrInHalt = .frozen)) :
    timerCounts s = false := by
  rw [← Bool.not_eq_true, timerCounts_iff]
  rintro ⟨hton, hclock⟩
  rcases h with h | ⟨hh, h | h⟩ <;> simp_all

/-- Settles O11: the ticks are one tick iterated. -/
theorem timerTicks : Obligations.TimerTicks := by
  intro s q n hs
  rw [runSteps_replicate hs nofun]
  refine ⟨fun hton hclock => ?counts, fun hstopped => ?stands⟩
  case counts =>
    have hc : timerCounts { s with schedule := q } = true := timerCounts_iff.mpr ⟨hton, hclock⟩
    exact congrArg Host.Outcome.next (iterate_timerTick hc n)
  case stands =>
    have hc : timerCounts { s with schedule := q } = false := timerCounts_false_of_stopped hstopped
    have hfixed : timerTick { s with schedule := q } = { s with schedule := q } := by rw [timerTick, hc]; rfl
    exact congrArg Host.Outcome.next (Function.iterate_fixed hfixed n)

/-! ### Pins -/

section
variable (s : State) (p : InPort) (i : Fin 4) (d : PinDrive)

/-- R38, R331: the changed pin comes under the new drive, every other pin stays. -/
theorem getPin_pinChange (p' : InPort) (j : Fin 4) :
    getPin (portPins (pinChange s p i d) p') j = if (p', j) = (p, i) then d else getPin (portPins s p') j := by
  have hpins : portPins (pinChange s p i d) p' = portPins (setPortPins s p (setPin (portPins s p) i d)) p' := by
    rw [pinChange_eq]; rfl
  rw [hpins, portPins_setPortPins]
  by_cases hp : p' = p
  · subst hp
    simp only [if_true, getPin_setPin, Prod.mk.injEq, true_and]
  · simp only [hp, if_false, Prod.mk.injEq, false_and]

theorem getPin_pinChange_same : getPin (portPins (pinChange s p i d) p) i = d :=
  (getPin_pinChange s p i d p i).trans (if_pos rfl)

theorem getPin_pinChange_other {p' : InPort} {j : Fin 4} (h : (p', j) ≠ (p, i)) :
    getPin (portPins (pinChange s p i d) p') j = getPin (portPins s p') j :=
  (getPin_pinChange s p i d p' j).trans (if_neg h)

/-- Whether a drive gives a pin a level is a matter of the options. -/
theorem knownLevel_of_opts {s t : State} (h : t.opts = s.opts) : knownLevel t p d = knownLevel s p d := by
  cases d with
  | low | high => rfl
  | floating => rw [knownLevel, knownLevel, h]

/-- R38, R66, R331: the new level, where there is one, is what `IN` reads from now on. -/
theorem getLsbD_portRead_pinChange {level : Bool} (free : Nibble) (h : knownLevel s p d = some level) :
    (portRead (pinChange s p i d) p free).getLsbD i.val = level := by
  apply getLsbD_portRead_of_knownLevel
  rw [getPin_pinChange_same, knownLevel_of_opts p d (pinChange_opts s p i d), h]

end

section
variable {s : State} {p : InPort} {i : Fin 4} {d : PinDrive}

/-- R331, D12: a halted processor is woken by a fall of a pin with its `WAKE` option. -/
theorem wakes_of_falls (hh : s.halted = true) (hw : (s.opts.wakeMask p).getLsbD i.val = true)
    (hbefore : knownLevel s p (getPin (portPins s p) i) = some true) (hafter : knownLevel s p d = some false) :
    wakes s p i d = true := by
  rw [wakes, hh, hw, pinFalls_of_knownLevel hbefore hafter]
  rfl

/-- R331, D12: a running processor, a pin without the option, and a pin that does not fall request nothing. -/
theorem not_wakes (h : s.halted = false ∨ (s.opts.wakeMask p).getLsbD i.val = false ∨
      knownLevel s p (getPin (portPins s p) i) = some false ∨ knownLevel s p d = some true) :
    wakes s p i d = false := by
  rcases h with hh | hw | hlevel
  · rw [wakes, hh]; rfl
  · rw [wakes, hw, Bool.and_false]; rfl
  · rw [wakes, not_pinFalls_of_knownLevel hlevel, Bool.and_false]

/-- A change that wakes requests the external interrupt and ends the halt. -/
theorem pinChange_of_wakes (h : wakes s p i d = true) :
    (pinChange s p i d).extf = true ∧ (pinChange s p i d).halted = false := by
  rw [pinChange_eq, h]
  exact ⟨rfl, rfl⟩

/-- A change that does not wake requests nothing. -/
theorem pinChange_of_not_wakes (h : wakes s p i d = false) :
    (pinChange s p i d).extf = s.extf ∧ (pinChange s p i d).halted = s.halted := by
  rw [pinChange_eq, h]
  exact ⟨rfl, rfl⟩

end

/-- Settles O10: the step is the pin's change, which wakes or does not. -/
theorem pinEdges : Obligations.PinEdges := by
  intro s q p i d hs
  refine ⟨pinChange { s with schedule := q } p i d, step_of_event hs nofun, getPin_pinChange_same _ p i d,
    fun p' j hne => getPin_pinChange_other _ p i d hne, fun level free h => getLsbD_portRead_pinChange _ p i d free h,
    fun hh hw hbefore hafter => ?wakes, fun hno => ?stays, ?either, ?frame⟩
  case wakes => exact pinChange_of_wakes (wakes_of_falls (s := { s with schedule := q }) hh hw hbefore hafter)
  case stays => exact pinChange_of_not_wakes (not_wakes (s := { s with schedule := q }) hno)
  case either =>
    cases hw : wakes { s with schedule := q } p i d with
    | true => exact .inl (pinChange_of_wakes hw)
    | false => exact .inr (pinChange_of_not_wakes hw)
  case frame => rw [pinChange_eq]

/-! ### A halted processor -/

/-- What R330 lets change while the processor is halted. -/
structure KeptInHalt (s t : State) : Prop where
  frame : t = { s with pins := t.pins, extf := t.extf, halted := t.halted, tmr := t.tmr, tf := t.tf, freeCount := t.freeCount }
  timer : (t.tmr ≠ s.tmr ∨ t.tf ≠ s.tf) → s.opts.tmrSrc = .ext ∧ s.opts.extTmrInHalt = .counts ∧ s.ton = true
  request : t.halted = false → t.extf = true

/-- R330: no event but a reset changes more of a halted processor. -/
theorem fireEvent_of_halted {e : EnvEvent} {s : State} (hh : s.halted = true) (he : e ≠ .resetPulse) :
    KeptInHalt s (fireEvent e s) := by
  cases e with
  | processor => exact ⟨rfl, by simp [fireEvent], by simp [fireEvent, hh]⟩
  | resetPulse => exact absurd rfl he
  | intFalls => exact ⟨rfl, by simp [fireEvent], fun _ => rfl⟩
  | soundEnds =>
    have hkeep : soundEnds s = s := by
      have hon : (s.sndOn && (decide (s.sndMode = .loop) || s.halted)) = s.sndOn := by
        rw [hh, Bool.or_true, Bool.and_true]
      rw [soundEnds_eq, hon]
    rw [fireEvent, hkeep]
    exact ⟨rfl, by simp, by simp [hh]⟩
  | timerClock =>
    refine ⟨by rw [fireEvent, timerTick_eq], fun hne => ?_, by simp [fireEvent, hh]⟩
    have hc : timerCounts s = true := by
      by_contra hc
      simp [fireEvent, timerTick, hc] at hne
    obtain ⟨hton, hclock⟩ := timerCounts_iff.mp hc
    obtain ⟨hsrc, hcounts⟩ := hclock.resolve_left (by simp [hh])
    exact ⟨hsrc, hcounts, hton⟩
  | pinChange p i d =>
    refine ⟨by rw [fireEvent, pinChange_eq], by simp [fireEvent], fun hwoken => ?_⟩
    cases hw : wakes s p i d with
    | true => exact (pinChange_of_wakes hw).1
    | false =>
      have hstays : (fireEvent (.pinChange p i d) s).halted = true := (pinChange_of_not_wakes hw).2.trans hh
      rw [hstays] at hwoken
      cases hwoken

/-- Settles O14: a halted processor's step is its idle turn or an event. -/
theorem haltKeepsState : Obligations.HaltKeepsState := by
  intro s t hh h hreset
  rcases step_next_cases h with
    ⟨-, -, ⟨-, rfl⟩ | ⟨src, hsrc, -⟩ | ⟨i, -, hrun, -⟩⟩ | ⟨e, hp, hevent, -, rfl⟩
  · exact ⟨rfl, by simp, by simp [hh], fun _ => rfl⟩
  · simp [entersNext, acceptedInterrupt, hh] at hsrc
  · rw [hh] at hrun
    cases hrun
  · have he : e ≠ .resetPulse := fun he => hreset (he ▸ hevent)
    obtain ⟨hframe, htimer, hrequest⟩ := fireEvent_of_halted (s := { s with schedule := s.schedule.tail }) hh he
    exact ⟨hframe, htimer, hrequest, by simp [hp]⟩

/-! ### The processor's turn -/

/-- The turn that executes the instruction fetched. -/
theorem processorStep_of_ok {s : State} {i : Instr} {rest : List Byte} (hh : s.halted = false)
    (ha : acceptedInterrupt s = none) (hd : decode (fetchWindow s) = .ok (i, rest)) : processorStep s = exec i s :=
  (processorStep_of_none hh ha).trans (runInstruction_of_ok hd)

/-- With nothing scheduled the step executes the instruction fetched (R320). -/
theorem step_executes {s : State} {i : Instr} {rest : List Byte} (hs : s.schedule = []) (hh : s.halted = false)
    (ha : acceptedInterrupt s = none) (hd : decode (fetchWindow s) = .ok (i, rest)) : step s = exec i s :=
  (step_of_empty hs).trans (processorStep_of_ok hh ha hd)

/-- Nothing is accepted where `IE` and `SUB` hold requests back, or where there is none (R317). -/
theorem acceptedInterrupt_none_of {s : State} (h : ¬(s.ie = true ∧ s.sub = .main ∧ (s.extf = true ∨ s.tf = true))) :
    acceptedInterrupt s = none :=
  acceptedInterrupt_none_iff.mpr fun ⟨_, haccepts⟩ => h haccepts

/-- R313, R315: `DI` holds every request back, and so do a subroutine and an interrupt routine. -/
theorem acceptedInterrupt_none_of_held {s : State} (h : s.ie = false ∨ s.sub ≠ .main) : acceptedInterrupt s = none := by
  apply acceptedInterrupt_none_of
  rintro ⟨hie, hsub, -⟩
  rcases h with h | h
  · rw [h] at hie
    cases hie
  · exact h hsub

/-- Settles O6: the processor's turn, scheduled or not, executes what it fetches. -/
theorem stepRunsDecodedInstruction : Obligations.StepRunsDecodedInstruction := by
  intro s i rest hh hn hd
  have ha := acceptedInterrupt_none_of hn
  refine ⟨fun hs => ?empty, fun q hs => ?scheduled⟩
  case empty => exact step_executes hs hh ha hd
  case scheduled => exact (step_of_processor hs).trans (processorStep_of_ok (s := { s with schedule := q }) hh ha hd)

section
variable {s : State} (hs : s.schedule = []) (hh : s.halted = false) (hie : s.ie = true) (hsub : s.sub = .main)
include hs hh hie hsub

/-- R316, R317: a pending external request is accepted whatever the timer's is. -/
theorem step_enters_external (hextf : s.extf = true) : step s = .next (enterInterrupt .external s) :=
  (step_of_empty hs).trans (processorStep_of_interrupt (acceptedInterrupt_external_iff.mpr ⟨hh, hie, hsub, hextf⟩))

/-- R316, R317: a pending timer request is accepted where there is no external one. -/
theorem step_enters_timer (hextf : s.extf = false) (htf : s.tf = true) : step s = .next (enterInterrupt .timer s) :=
  (step_of_empty hs).trans (processorStep_of_interrupt (acceptedInterrupt_timer_iff.mpr ⟨hh, hie, hsub, hextf, htf⟩))

end

/-- Settles O8: the step is interrupt entry for the source accepted. -/
theorem interruptEntry : Obligations.InterruptEntry := by
  intro s hs hh hie hsub
  exact ⟨step_enters_external hs hh hie hsub, step_enters_timer hs hh hie hsub⟩

/-! ### Sequences of steps -/

/-- The last step of a run. -/
theorem runSteps_one (s : State) : runSteps 1 s = step s := by
  rw [runSteps]
  cases step s <;> rfl

/-- The state after `HALT` (R297). -/
def afterHalt (s : State) : State := { s with pc := s.pc + 2, halted := true }

/-- The state that event `e` leaves of `s` when it is a wake-up, `q` still to come: the halt over, the request held (R332). -/
def wokenBy (e : EnvEvent) (q : List EnvEvent) (s : State) : State :=
  { s with
    extf := true, halted := false, schedule := q
    pins := (fireEvent e s).pins, freeCount := (fireEvent e s).freeCount }

/-- R332: each event that R332 means wakes a halted processor. -/
theorem fireEvent_of_fallingEdge {s : State} {e : EnvEvent} (q : List EnvEvent) (hh : s.halted = true)
    (he : fallingEdge s e = true) : fireEvent e { s with schedule := q } = wokenBy e q s := by
  rw [fireEvent_schedule]
  cases e with
  | intFalls => rfl
  | pinChange p i d =>
    simp only [fallingEdge, Bool.and_eq_true, decide_eq_true_eq] at he
    obtain ⟨⟨hw, hbefore⟩, hafter⟩ := he
    rw [wokenBy, fireEvent, pinChange_eq, wakes_of_falls hh hw hbefore hafter]
    rfl
  | processor | timerClock | resetPulse | soundEnds => cases he

/-- R332: the event that wakes a halted processor, and then its turn. -/
theorem runSteps_two_of_fallingEdge {s : State} {e : EnvEvent} (q : List EnvEvent) (hh : s.halted = true)
    (he : fallingEdge s e = true) :
    runSteps 2 { s with schedule := e :: .processor :: q } = processorStep (wokenBy e q s) := by
  have hne : e ≠ .processor := by
    rintro rfl
    cases he
  have hevent : step { s with schedule := e :: .processor :: q } = .next (wokenBy e (.processor :: q) s) := by
    rw [← fireEvent_of_fallingEdge _ hh he]
    exact step_of_event rfl hne
  rw [runSteps_of_next hevent, runSteps_one]
  exact step_of_processor rfl

/-- Settles O15: the `HALT`, the event that ends it, and the turn of the processor woken, which accepts the request or does
not. -/
theorem wakeUpCases : Obligations.WakeUpCases := by
  intro s q rest e hs he hh hn hd
  have hhalt : step s = .next { afterHalt s with schedule := e :: .processor :: q } :=
    (step_of_processor hs).trans
      (processorStep_of_ok (s := { s with schedule := e :: .processor :: q }) hh (acceptedInterrupt_none_of hn) hd)
  have hrun : runSteps 3 s = processorStep (wokenBy e q (afterHalt s)) :=
    (runSteps_of_next hhalt).trans (runSteps_two_of_fallingEdge (s := afterHalt s) q rfl he)
  refine ⟨wokenBy e q (afterHalt s), ?frame, ?intPins, ?pinPins, fun hheld => ?resumes, fun hie hsub => ?enters⟩
  case frame => exact congrArg (fun h : Bool => { wokenBy e q (afterHalt s) with halted := h }) hh.symm
  case intPins => rintro rfl; rfl
  case pinPins =>
    rintro p i d rfl
    exact ⟨getPin_pinChange_same (afterHalt s) p i d, fun p' j hne => getPin_pinChange_other (afterHalt s) p i d hne⟩
  case resumes => exact hrun.trans (processorStep_of_none rfl (acceptedInterrupt_none_of_held hheld))
  case enters =>
    have haccepts : acceptedInterrupt (wokenBy e q (afterHalt s)) = some .external :=
      acceptedInterrupt_external_iff.mpr ⟨rfl, hie, hsub, rfl⟩
    exact hrun.trans (processorStep_of_interrupt haccepts)

/-- Settles O16: the external entry, the `RETI` that is its whole routine, the timer entry. -/
theorem bothRequestsServedInTurn : Obligations.BothRequestsServedInTurn := by
  intro s rest hs hh hie hsub hextf htf hd
  have hreti : step (enterInterrupt .external s) = .next (returnFromStack true (enterInterrupt .external s)) :=
    step_executes (s := enterInterrupt .external s) hs hh (acceptedInterrupt_none_of_held (.inr nofun)) hd
  calc runSteps 3 s
      = runSteps 2 (enterInterrupt .external s) := runSteps_of_next (step_enters_external hs hh hie hsub hextf)
    _ = runSteps 1 (returnFromStack true (enterInterrupt .external s)) := runSteps_of_next hreti
    _ = step (returnFromStack true (enterInterrupt .external s)) := runSteps_one _
    _ = .next (enterInterrupt .timer (returnFromStack true (enterInterrupt .external s))) :=
        step_enters_timer hs hh hie rfl rfl htf

section
variable {s t : State} (hstep : step s = .next t) (hs : t.schedule = []) (hh : t.halted = false) (hie : t.ie = true)
  (hsub : t.sub = .main)
include hstep hs hh hie hsub

/-- D10: at the boundary after a step that ends the hold on interrupts, the pending request is served, the external one first. -/
theorem runSteps_two_serves :
    (t.extf = true → runSteps 2 s = .next (enterInterrupt .external t)) ∧
    (t.extf = false → t.tf = true → runSteps 2 s = .next (enterInterrupt .timer t)) := by
  rw [runSteps_of_next hstep, runSteps_one]
  exact ⟨step_enters_external hs hh hie hsub, step_enters_timer hs hh hie hsub⟩

end

/-- Settles O17: while the hold lasts the step executes; `EI`, `RET` and `RETI` each leave a state without it. -/
theorem heldRequestServedAfterHoldEnds : Obligations.HeldRequestServedAfterHoldEnds := by
  intro s rest hs hh
  have executes {i : Instr} (hheld : s.ie = false ∨ s.sub ≠ .main) (hd : decode (fetchWindow s) = .ok (i, rest)) :
      step s = exec i s := step_executes hs hh (acceptedInterrupt_none_of_held hheld) hd
  refine ⟨fun hie hsub hd => ?ei, fun hie hsub hd => ?ret, fun hie hsub hd => ?reti⟩
  case ei => exact runSteps_two_serves (executes (.inl hie) hd) hs hh rfl hsub
  case ret => exact runSteps_two_serves (executes (.inr hsub) hd) hs hh hie rfl
  case reti => exact runSteps_two_serves (executes (.inr hsub) hd) hs hh hie rfl

end Sys2Proof.Machine
end

section
/-! PROOFS for the family 70_reset_and_hazards.md. Both statements read off the values that the reset event and the reset state
write; the first fetch is the step of a machine with nothing scheduled (`step_executes`). -/

namespace Sys2Proof.Machine

/-- Settles O12: the event is the whole step, and it writes what the reset list says. -/
theorem resetPulse : Obligations.ResetPulse := by
  intro s q hs
  exact ⟨performReset { s with schedule := q }, step_of_event hs nofun, rfl, rfl, rfl, rfl, rfl, rfl, rfl, rfl, rfl, rfl, rfl,
    rfl, rfl, rfl, rfl⟩

/-- Settles O13: nothing is scheduled, halted or pending after reset, so the first step executes what it fetches at 000H. -/
theorem resetStateAndFirstFetch : Obligations.ResetStateAndFirstFetch := by
  refine ⟨fun o m => ⟨?values, fun i rest hd => ?firstStep⟩, rfl⟩
  case values => exact ⟨rfl, rfl, rfl, rfl, rfl, rfl, rfl, rfl, rfl, rfl, rfl⟩
  case firstStep => exact step_executes rfl rfl rfl hd

end Sys2Proof.Machine
end
